-- ==== Sys2Proof/Word.lean ====
section
/-! DEFINITION. The machine's word types (00_scope.md rules R9, R11): bytes, 16-bit words, 12-bit addresses and
4-bit fields. -/

namespace Sys2Proof

/-- A byte of memory, a general register, a timer (R9). -/
abbrev Byte := BitVec 8

/-- An opcode, the program counter, a stack entry (R9). -/
abbrev Word := BitVec 16

/-- The NNN field: a 12-bit address (30_encoding.md R94). -/
abbrev Addr := BitVec 12

/-- The X or Y field: a register number 0..15 (30_encoding.md R95). -/
abbrev Reg := BitVec 4

/-- The N field: a 4-bit count or sub-opcode (30_encoding.md R95). -/
abbrev Nibble := BitVec 4

/-- The 16-key vector: bit k is 1 while key k is pressed (00_scope.md R7). -/
abbrev Keys := BitVec 16

/-- MEM_SIZE (R9). -/
abbrev memSize : Nat := 4096

end Sys2Proof
end

