-- ==== Sys2Proof/Config.lean ====
section
/-! DEFINITION. The parameters of 00_scope.md rule R10 and the free values. The configuration is fixed for a
machine (10_state.md R49): no step changes it. -/

namespace Sys2Proof

/-- SYS_MODE (R10, decision D12): what a 0NNN does. -/
inductive SysMode where
  /-- Execute the word stored at NNN in place of the 0NNN. -/
  | execAt
  /-- Every 0NNN is refused. -/
  | refuse
  deriving DecidableEq, Repr

/-- The parameters the source leaves open (R10), each named as the spec names it. KEYWAIT_PICK is not here: it is
the free value `Config.freePick`. -/
structure Config where
  /-- ENTRY: where the image is loaded and the pc starts. -/
  entry : Addr
  /-- STACK_DEPTH: capacity of the call stack. -/
  stackDepth : Nat
  /-- IPF: the instruction budget of one frame. -/
  ipf : Nat
  /-- INDEX_ADVANCE: whether FX55 and FX65 advance I. -/
  indexAdvance : Bool
  /-- SYS_MODE. -/
  sysMode : SysMode
  /-- SYS_DEPTH_MAX: the cap on nested 0NNN words. -/
  sysDepthMax : Nat
  /-- RESET_V. -/
  resetV : Vector Byte 16
  /-- RESET_I. -/
  resetI : Addr
  /-- RESET_DT. -/
  resetDt : Byte
  /-- RESET_ST. -/
  resetSt : Byte
  /-- FONT_DATA: 16 glyphs of 5 bytes. -/
  font : Vector Byte 80
  deriving DecidableEq, Repr

/-- The ranges of R10's table. -/
abbrev Config.wf (c : Config) : Prop :=
  0x050 ≤ c.entry.toNat ∧ 12 ≤ c.stackDepth ∧ c.stackDepth ≤ 16 ∧ 1 ≤ c.ipf ∧ 1 ≤ c.sysDepthMax

/-- The standard font, glyph by glyph (93_implementation_defined.md GK4, decision D26). PRESUMED by the spec
itself (from general knowledge); log entry 5. -/
def Config.standardFont : Vector Byte 80 :=
  #v[0xF0, 0x90, 0x90, 0x90, 0xF0,  0x20, 0x60, 0x20, 0x20, 0x70,
     0xF0, 0x10, 0xF0, 0x80, 0xF0,  0xF0, 0x10, 0xF0, 0x10, 0xF0,
     0x90, 0x90, 0xF0, 0x10, 0x10,  0xF0, 0x80, 0xF0, 0x10, 0xF0,
     0xF0, 0x80, 0xF0, 0x90, 0xF0,  0xF0, 0x10, 0x20, 0x40, 0x40,
     0xF0, 0x90, 0xF0, 0x90, 0xF0,  0xF0, 0x90, 0xF0, 0x10, 0xF0,
     0xF0, 0x90, 0xF0, 0x90, 0x90,  0xE0, 0x90, 0xE0, 0x90, 0xE0,
     0xF0, 0x80, 0x80, 0x80, 0xF0,  0xE0, 0x90, 0x90, 0x90, 0xE0,
     0xF0, 0x80, 0xF0, 0x80, 0xF0,  0xF0, 0x80, 0xF0, 0x80, 0x80]

/-- The column "spec default" of R10's table; for the two OPEN parameters (STACK_DEPTH, IPF) its simulator
defaults. DESIGN CHOICE, log entry 4: only `State.reset` uses it, every statement about a step quantifies over all
configurations. -/
def Config.standard : Config where
  entry := 0x200
  stackDepth := 16
  ipf := 10
  indexAdvance := true
  sysMode := .execAt
  sysDepthMax := 16
  resetV := Vector.replicate 16 0
  resetI := 0
  resetDt := 0
  resetSt := 0
  font := Config.standardFont

/-- FREE VALUE: the `rnd` byte of a CXNN (R7, R152), one per execution, under no law; log entry 3. -/
opaque Config.freeRnd : Nat → Byte

/-- FREE VALUE: the key vector the host passes to a FRAME (R7, R250); log entry 3. -/
opaque Config.freeKeys : Nat → Keys

/-- FREE VALUE: KEYWAIT_PICK (R10, decision D15): which of several released keys FX0A returns; log entry 3. -/
opaque Config.freePick : Nat → Nat

end Sys2Proof
end

