-- ==== Sys2Proof/Machine/State.lean ====
section
/-! DEFINITION. The machine's state (10_state.md rules R20, R45, R48), the reasons a step can stop, and the state
right after reset. State is plain data. -/

namespace Sys2Proof.Machine

/-- The fault kinds of 60_exceptions.md R230. The spec describes what a fault does to the machine (R232: the core
halts with the kind recorded), so a fault is a NEXT state with `halted` set and the kind in `faultKind`; no step of
this model answers `Host.Outcome.fault` (DEDUCED, log entry 7). -/
inductive Fault where
  /-- Code 1: no handler for the word (R103), fetched or reached through 0NNN. Safe: the spec gives this outcome. -/
  | invalidOpcode
  /-- Code 2: kept in the enumeration; nothing raises it (10_state.md R23). Safe. -/
  | invalidRegister
  /-- Code 3: a fetch, a 0NNN read, DXYN, FX33, FX55 or FX65 outside 0x000..0xFFF (20_memory.md R66). Safe. -/
  | outOfBoundsAddress
  /-- Code 4: 00EE with SP = 0 (10_state.md R35). Safe. -/
  | emptyStackUnderflow
  /-- Code 5: 2NNN with SP = STACK_DEPTH (10_state.md R34). Safe. -/
  | stackOverflow
  /-- Code 6: nesting of 0NNN words reached SYS_DEPTH_MAX (40_control_flow.md R130). Safe. -/
  | sysDepthExceeded
  /-- Code 7: a 0NNN while SYS_MODE = refuse (60_exceptions.md R233). Safe. -/
  | refused
  deriving DecidableEq, Repr

/-- Why the model gives no step. -/
inductive Refusal where
  /-- Only `exec`'s arm of an instruction without a meaning raises it; every instruction of this model has one.
  Safe: it stops where the hardware goes on. -/
  | notModelled (mnemonic : String)
  deriving DecidableEq, Repr

/-- Memory as the list of the bytes that differ from what an unlisted address reads as (`Memory.unlisted`), by
strictly rising address. -/
abbrev Memory := List Host.Cell

/-- The display buffer: 32 rows of 64 cells (10_state.md R39); `display[y][x]` is `disp(x, y)`. -/
abbrev Display := Vector (Vector Bool 64) 32

/-- The machine's state. -/
structure State where
  /-- V0..VF (R21); VF is index 15. -/
  v : Vector Byte 16
  /-- I: a 16-bit field whose bits 15..12 stay 0 (R25). -/
  i : Word
  /-- The program counter (R27). -/
  pc : Word
  /-- The entries in use, the top (`stack[SP-1]`) first; SP is the length (R31-R33). -/
  stack : List Word
  /-- The delay timer (R36). -/
  dt : Byte
  /-- The sound timer (R37). -/
  st : Byte
  /-- mem[0..4095] (R43). -/
  mem : Memory
  /-- The display buffer (R39). -/
  display : Display
  /-- The current key vector (R41). -/
  key : Keys
  /-- The key vector of the previous frame (R41, R46). -/
  prevKey : Keys
  /-- Set by a fault or refusal, cleared only by LOAD (R47). -/
  halted : Bool
  /-- The kind recorded with `halted` (R20); `none` while not halted. -/
  faultKind : Option Fault
  /-- The model's own: a FRAME operation is under way (a model step is finer than FRAME; log entry 2). -/
  inFrame : Bool
  /-- Frame-local: instruction steps run in this frame (R45). -/
  executed : Nat
  /-- Frame-local: the frame is to end early (R45). -/
  frameOver : Bool
  /-- The model's own: how many free values have been drawn (log entry 3). -/
  freeCount : Nat
  /-- The configuration (00_scope.md R10): the parameter of the step relation, which rides along because `step`
  takes no other argument; no step changes it (R49; log entry 4). -/
  cfg : Config
  deriving DecidableEq, Repr

/-- A fresh machine with an empty image: R48's table, with R10's parameters from `c`. Memory lists nothing: an
unlisted address reads the font or 0. -/
def State.initial (c : Config) : State where
  v := c.resetV
  i := c.resetI.setWidth 16
  pc := c.entry.setWidth 16
  stack := []
  dt := c.resetDt
  st := c.resetSt
  mem := []
  display := Vector.replicate 32 (Vector.replicate 64 false)
  key := 0
  prevKey := 0
  halted := false
  faultKind := none
  inFrame := false
  executed := 0
  frameOver := false
  freeCount := 0
  cfg := c

/-- The machine right after reset with the spec's default parameters: LOAD of the empty image
(70_reset_and_hazards.md R270, R271). DESIGN CHOICE where the source gives no value: log entries 4 and 6. -/
def State.reset : State := State.initial Config.standard

end Sys2Proof.Machine
end

