-- ==== Sys2Proof/Machine/Ops.lean ====
section
/-! DEFINITION. The named operations over memory, registers, stack, display and free values, and the one operation
that enters a fault. -/

namespace Sys2Proof.Machine

/-! ## Results of an instruction's pseudocode -/

/-- What an instruction's pseudocode gives: a state, or `raise Fault(kind)` (00_scope.md R15). -/
abbrev Effect := Except Fault State

/-! ## Memory (20_memory.md) -/

/-- What an address that the list does not hold reads as: the content after LOAD (R70), the font at 0x000..0x04F and
zero elsewhere (DEDUCED, log entry 12). -/
def Memory.unlisted (c : Config) (a : Nat) : Byte :=
  if h : a < 80 then c.font[a] else 0

/-- The byte at `a`. -/
def Memory.read (c : Config) : Memory → Nat → Byte
  | [], a => Memory.unlisted c a
  | e :: rest, a => if e.1 = a then e.2 else Memory.read c rest a

/-- Put an entry at its place by address; no entry has that address before. -/
def Memory.insert (a : Nat) (b : Byte) : Memory → Memory
  | [] => [(a, b)]
  | e :: rest => if a < e.1 then (a, b) :: e :: rest else e :: Memory.insert a b rest

/-- Remove the entries at `a`. -/
def Memory.erase (a : Nat) (m : Memory) : Memory := m.filter fun e => e.1 != a

/-- Make the byte at `a` be `b`, keeping the canonical form. -/
def Memory.write (c : Config) (m : Memory) (a : Nat) (b : Byte) : Memory :=
  if b = Memory.unlisted c a then Memory.erase a m else Memory.insert a b (Memory.erase a m)

/-- Write consecutive bytes from `a` on. -/
def Memory.writeBytes (c : Config) : Memory → Nat → List Byte → Memory
  | m, _, [] => m
  | m, a, b :: bs => Memory.writeBytes c (Memory.write c m a b) (a + 1) bs

/-- The canonical form: addresses strictly rising and inside the space, and no entry equal to what its address
reads as when unlisted. -/
abbrev Memory.wf (c : Config) (m : Memory) : Prop :=
  m.Pairwise (fun d e => d.1 < e.1) ∧ ∀ e ∈ m, e.1 < memSize ∧ e.2 ≠ Memory.unlisted c e.1

/-- The byte at `a` as the machine sees it. -/
def State.memByte (s : State) (a : Nat) : Byte := Memory.read s.cfg s.mem a

/-- Whether `n` bytes from `a` on lie in the address space (R61, R65); zero bytes always do (R201: N = 0). -/
def inSpace (a n : Nat) : Bool := n == 0 || decide (a + n ≤ memSize)

/-- The `n` bytes from `a` on, unchecked. -/
def State.bytesAt (s : State) (a : Nat) : Nat → List Byte
  | 0 => []
  | n + 1 => s.memByte a :: s.bytesAt (a + 1) n

/-- MemRead of a range, checked as one before any byte is read (R65, R66). -/
def State.memRead (s : State) (a n : Nat) : Except Fault (List Byte) :=
  if inSpace a n then .ok (s.bytesAt a n) else .error .outOfBoundsAddress

/-- Replace the memory. -/
def State.setMem (s : State) (m : Memory) : State := { s with mem := m }

/-- MemWrite of a range, checked as one before any byte is written (R65, R66). -/
def State.memWrite (s : State) (a : Nat) (bs : List Byte) : Effect :=
  if inSpace a bs.length then .ok (s.setMem (Memory.writeBytes s.cfg s.mem a bs))
  else .error .outOfBoundsAddress

/-! ## Registers (10_state.md) -/

/-- VF's number. -/
abbrev regF : Reg := 0xF#4

/-- `V[x]` (00_scope.md R13). -/
def State.readV (s : State) (x : Reg) : Byte := s.v[x.toNat]'x.isLt

/-- `V[x] <- b`. -/
def State.writeV (s : State) (x : Reg) (b : Byte) : State := { s with v := s.v.set x.toNat b x.isLt }

/-- Every write to I keeps the low 12 bits (R25). -/
def State.writeI (s : State) (n : Nat) : State := { s with i := BitVec.ofNat 16 (n % 4096) }

/-- `pc <- target`. -/
def State.setPc (s : State) (target : Word) : State := { s with pc := target }

/-- `pc <- trunc_16(pc + 2)`: the fetch's advance (30_encoding.md R90) and a taken skip. -/
def State.advance (s : State) : State := { s with pc := s.pc + 2 }

/-- `pc <- pc - 2`: FX0A's rewind (45_input.md R212). -/
def State.rewind (s : State) : State := { s with pc := s.pc - 2 }

/-- Skip the next word when the condition holds. -/
def State.skipIf (s : State) (c : Bool) : State := if c then s.advance else s

/-- `DT <- b`. -/
def State.writeDt (s : State) (b : Byte) : State := { s with dt := b }

/-- `ST <- b`. -/
def State.writeSt (s : State) (b : Byte) : State := { s with st := b }

/-- All of V at once (FX65). -/
def State.setV (s : State) (v : Vector Byte 16) : State := { s with v := v }

/-! ## Call stack (10_state.md R31-R35) -/

/-- SP: the number of entries in use (R32). -/
def State.sp (s : State) : Nat := s.stack.length

/-- `stack[k]` for k < SP, counted from the bottom (R32); a value nothing observes above it (R33). -/
def State.stackEntry (s : State) (k : Nat) : Word := s.stack.reverse.getD k 0

/-- Replace the entries in use. -/
def State.setStack (s : State) (ws : List Word) : State := { s with stack := ws }

/-- `Push(v)` (R34; DEDUCED for states with more than STACK_DEPTH entries, log entry 11). -/
def State.push (s : State) (w : Word) : Effect :=
  if s.cfg.stackDepth ≤ s.sp then .error .stackOverflow else .ok (s.setStack (w :: s.stack))

/-- `pc <- Pop()` (R35, R131). -/
def State.popToPc (s : State) : Effect :=
  match s.stack with
  | [] => .error .emptyStackUnderflow
  | w :: rest => .ok ((s.setStack rest).setPc w)

/-! ## Display (10_state.md R39) -/

/-- `disp(x, y)`; false outside the grid. -/
def Display.cell (d : Display) (x y : Nat) : Bool :=
  if h : x < 64 ∧ y < 32 then (d[y]'h.2)[x]'h.1 else false

/-- Invert `disp(x, y)`; nothing outside the grid. -/
def Display.invert (d : Display) (x y : Nat) : Display :=
  if h : x < 64 ∧ y < 32 then d.set y ((d[y]'h.2).set x (!(d[y]'h.2)[x]'h.1) h.1) h.2 else d

/-- All cells 0. -/
def Display.clear : Display := Vector.replicate 32 (Vector.replicate 64 false)

/-- Replace the display buffer. -/
def State.setDisplay (s : State) (d : Display) : State := { s with display := d }

/-! ## The frame flag and the free values -/

/-- `frame_over <- 1` (44_display.md R201, 45_input.md R212). -/
def State.endFrameEarly (s : State) : State := { s with frameOver := true }

/-- A free value has been drawn: the next draw is another one. -/
def State.drawFree (s : State) : State := { s with freeCount := s.freeCount + 1 }

/-! ## Taking a fault (60_exceptions.md R232) -/

/-- Fault entry from the state before the step's fetch: its pc is the fetch address, every write of the step is
gone, the core is halted and the kind recorded. A refusal is entered the same way (R233; DEDUCED, log entry 7). -/
def State.enterFault (s : State) (k : Fault) : State := { s with halted := true, faultKind := some k }

/-- One instruction, all or nothing (00_scope.md R15, 20_memory.md R68): run its pseudocode with the pc advanced;
a raised fault discards what it did. -/
def atomically (effect : State → Effect) (s : State) : Host.Outcome State Fault Refusal :=
  match effect s.advance with
  | .ok t => .next t
  | .error k => .next (s.enterFault k)

end Sys2Proof.Machine
end

