-- ==== Sys2Proof/Machine/Flags.lean ====
section
/-! DEFINITION. The arithmetic and the flag computations (42_register_register.md R160-R170): every value is exact
on naturals and narrowed at the end; the flag goes to VF last. -/

namespace Sys2Proof.Machine

/-- A flag as VF holds it. -/
def flagByte (b : Bool) : Byte := if b then 1 else 0

/-- `trunc_8(x + y)` (R165, 41_register_immediate.md R151). -/
def sum8 (x y : Byte) : Byte := BitVec.ofNat 8 ((x.toNat + y.toNat) % 256)

/-- The carry of `x + y`: the sum is over 255 (R165). -/
def carry8 (x y : Byte) : Bool := decide (255 < x.toNat + y.toNat)

/-- `trunc_8(x - y + 256)` (R166, R168). -/
def diff8 (x y : Byte) : Byte := BitVec.ofNat 8 ((x.toNat + 256 - y.toNat) % 256)

/-- Not-borrow of `x - y`: `x >= y` (R166, R168). -/
def notBorrow8 (x y : Byte) : Bool := decide (y.toNat ≤ x.toNat)

/-- `y >> 1` (R167). -/
def half8 (y : Byte) : Byte := BitVec.ofNat 8 (y.toNat / 2)

/-- Bit 0, shifted out to the right (R167). -/
def lowBit (y : Byte) : Bool := y.getLsbD 0

/-- `trunc_8(y << 1)` (R169). -/
def double8 (y : Byte) : Byte := BitVec.ofNat 8 (y.toNat * 2 % 256)

/-- Bit 7, shifted out to the left (R169). -/
def highBit (y : Byte) : Bool := y.getLsbD 7

/-- Result to VX first, flag to VF last, so VF holds the flag when X = F (R160). -/
def State.writeResult (s : State) (x : Reg) (r : Byte) (flag : Bool) : State :=
  (s.writeV x r).writeV regF (flagByte flag)

end Sys2Proof.Machine
end

