-- ==== Sys2Proof/Machine/Alu.lean ====
section
/-! DEFINITION. Register-to-register instructions (42_register_register.md R160-R169). Operands are read before any
write; the result goes to VX and then the flag to VF (R160). -/

namespace Sys2Proof.Machine

/-- R161: no flag. -/
def ldVxVyEffect (x y : Reg) (s : State) : Effect := .ok (s.writeV x (s.readV y))

/-- R162: VF is always 0 afterwards. -/
def orVxVyEffect (x y : Reg) (s : State) : Effect := .ok (s.writeResult x (s.readV x ||| s.readV y) false)

/-- R163: VF is always 0 afterwards. -/
def andVxVyEffect (x y : Reg) (s : State) : Effect := .ok (s.writeResult x (s.readV x &&& s.readV y) false)

/-- R164: VF is always 0 afterwards. -/
def xorVxVyEffect (x y : Reg) (s : State) : Effect := .ok (s.writeResult x (s.readV x ^^^ s.readV y) false)

/-- R165: VF is the carry. -/
def addVxVyEffect (x y : Reg) (s : State) : Effect :=
  .ok (s.writeResult x (sum8 (s.readV x) (s.readV y)) (carry8 (s.readV x) (s.readV y)))

/-- R166: VF is the not-borrow of VX - VY. -/
def subVxVyEffect (x y : Reg) (s : State) : Effect :=
  .ok (s.writeResult x (diff8 (s.readV x) (s.readV y)) (notBorrow8 (s.readV x) (s.readV y)))

/-- R167: VY is shifted, the old VX ignored; VF is bit 0 of VY. -/
def shrVxVyEffect (x y : Reg) (s : State) : Effect :=
  .ok (s.writeResult x (half8 (s.readV y)) (lowBit (s.readV y)))

/-- R168: VF is the not-borrow of VY - VX. -/
def subnVxVyEffect (x y : Reg) (s : State) : Effect :=
  .ok (s.writeResult x (diff8 (s.readV y) (s.readV x)) (notBorrow8 (s.readV y) (s.readV x)))

/-- R169: VY is shifted, the old VX ignored; VF is bit 7 of VY. -/
def shlVxVyEffect (x y : Reg) (s : State) : Effect :=
  .ok (s.writeResult x (double8 (s.readV y)) (highBit (s.readV y)))

/-- 8XY0 -/
def execLdVxVy (x y : Reg) (s : State) : Host.Outcome State Fault Refusal := atomically (ldVxVyEffect x y) s

/-- 8XY1 -/
def execOrVxVy (x y : Reg) (s : State) : Host.Outcome State Fault Refusal := atomically (orVxVyEffect x y) s

/-- 8XY2 -/
def execAndVxVy (x y : Reg) (s : State) : Host.Outcome State Fault Refusal := atomically (andVxVyEffect x y) s

/-- 8XY3 -/
def execXorVxVy (x y : Reg) (s : State) : Host.Outcome State Fault Refusal := atomically (xorVxVyEffect x y) s

/-- 8XY4 -/
def execAddVxVy (x y : Reg) (s : State) : Host.Outcome State Fault Refusal := atomically (addVxVyEffect x y) s

/-- 8XY5 -/
def execSubVxVy (x y : Reg) (s : State) : Host.Outcome State Fault Refusal := atomically (subVxVyEffect x y) s

/-- 8XY6 -/
def execShrVxVy (x y : Reg) (s : State) : Host.Outcome State Fault Refusal := atomically (shrVxVyEffect x y) s

/-- 8XY7 -/
def execSubnVxVy (x y : Reg) (s : State) : Host.Outcome State Fault Refusal := atomically (subnVxVyEffect x y) s

/-- 8XYE -/
def execShlVxVy (x y : Reg) (s : State) : Host.Outcome State Fault Refusal := atomically (shlVxVyEffect x y) s

end Sys2Proof.Machine
end

