-- ==== Sys2Proof/Machine/Operands.lean ====
section
/-! DEFINITION. The operand forms (30_encoding.md R95 and the instruction rules): jump targets, key and digit
numbers, sprite origins, register blocks, decimal digits, released keys. -/

namespace Sys2Proof.Machine

/-- NNN zero-extended to the pc's width (R95). -/
def jumpTarget (nnn : Addr) : Word := nnn.setWidth 16

/-- BNNN's target, not masked (40_control_flow.md R139). -/
def indexedTarget (nnn : Addr) (v0 : Byte) : Word := nnn.setWidth 16 + v0.setWidth 16

/-- The low nibble of VX: a key number (45_input.md R210) or a hex digit (43_memory_index.md R182). -/
def lowNibble (b : Byte) : Nat := b.toNat % 16

/-- `FONT_BASE + 5 * d` with FONT_BASE = 0 (43_memory_index.md R182). -/
def glyphAddr (b : Byte) : Nat := 5 * lowNibble b

/-- `key[k]` of a key vector (10_state.md R41). -/
def keyDown (keys : Keys) (k : Nat) : Bool := keys.getLsbD k

/-- `{ k : prevkey[k] = 1 and key[k] = 0 }`, in rising order (45_input.md R212). -/
def releasedKeys (prev now : Keys) : List Nat :=
  (List.range 16).filter fun k => keyDown prev k && !keyDown now k

/-- An element of a non-empty list of released keys, chosen by `n` (KEYWAIT_PICK, decision D15). -/
def pickKey (r : List Nat) (n : Nat) : Nat := r.getD (n % r.length) 0

/-- A key number as a register value. -/
def keyByte (k : Nat) : Byte := BitVec.ofNat 8 k

/-- The sprite's start column, `V[X] mod 64` (44_display.md R201). -/
def originX (b : Byte) : Nat := b.toNat % 64

/-- The sprite's start row, `V[Y] mod 32` (44_display.md R201). -/
def originY (b : Byte) : Nat := b.toNat % 32

/-- Hundreds, tens, ones (43_memory_index.md R183). -/
def decimalDigits (b : Byte) : List Byte :=
  [BitVec.ofNat 8 (b.toNat / 100), BitVec.ofNat 8 (b.toNat / 10 % 10), BitVec.ofNat 8 (b.toNat % 10)]

/-- V0..VX in order (43_memory_index.md R184). -/
def registerBlock (v : Vector Byte 16) (x : Reg) : List Byte := v.toList.take (x.toNat + 1)

/-- `for i: V[k + i] <- bytes[i]` (43_memory_index.md R185). -/
def loadBlock : List Byte → Nat → Vector Byte 16 → Vector Byte 16
  | [], _, v => v
  | b :: bs, k, v => loadBlock bs (k + 1) (v.setIfInBounds k b)

/-- I after FX55 and FX65: advanced by X + 1 and masked when INDEX_ADVANCE, else unchanged (R184, R185). -/
def State.advanceIndex (s : State) (x : Reg) : State :=
  if s.cfg.indexAdvance then s.writeI (s.i.toNat + x.toNat + 1) else s

end Sys2Proof.Machine
end

