-- ==== Sys2Proof/Machine/Control.lean ====
section
/-! DEFINITION. Control flow but 0NNN (40_control_flow.md R131-R139). Each `…Effect` sees the pc already advanced. -/

namespace Sys2Proof.Machine

/-- R131 -/
def retEffect (s : State) : Effect := s.popToPc

/-- R132 -/
def jpEffect (nnn : Addr) (s : State) : Effect := .ok (s.setPc (jumpTarget nnn))

/-- R133: the advanced pc is pushed. -/
def callEffect (nnn : Addr) (s : State) : Effect :=
  match s.push s.pc with
  | .ok t => .ok (t.setPc (jumpTarget nnn))
  | .error k => .error k

/-- R134 -/
def seVxNnEffect (x : Reg) (nn : Byte) (s : State) : Effect := .ok (s.skipIf (s.readV x == nn))

/-- R135 -/
def sneVxNnEffect (x : Reg) (nn : Byte) (s : State) : Effect := .ok (s.skipIf (s.readV x != nn))

/-- R136 -/
def seVxVyEffect (x y : Reg) (s : State) : Effect := .ok (s.skipIf (s.readV x == s.readV y))

/-- R137 -/
def sneVxVyEffect (x y : Reg) (s : State) : Effect := .ok (s.skipIf (s.readV x != s.readV y))

/-- R139: always V0; the sum is not masked. -/
def jpV0NnnEffect (nnn : Addr) (s : State) : Effect := .ok (s.setPc (indexedTarget nnn (s.readV 0)))

/-- 00EE -/
def execRet (s : State) : Host.Outcome State Fault Refusal := atomically retEffect s

/-- 1NNN -/
def execJp (nnn : Addr) (s : State) : Host.Outcome State Fault Refusal := atomically (jpEffect nnn) s

/-- 2NNN -/
def execCall (nnn : Addr) (s : State) : Host.Outcome State Fault Refusal := atomically (callEffect nnn) s

/-- 3XNN -/
def execSeVxNn (x : Reg) (nn : Byte) (s : State) : Host.Outcome State Fault Refusal :=
  atomically (seVxNnEffect x nn) s

/-- 4XNN -/
def execSneVxNn (x : Reg) (nn : Byte) (s : State) : Host.Outcome State Fault Refusal :=
  atomically (sneVxNnEffect x nn) s

/-- 5XY0 -/
def execSeVxVy (x y : Reg) (s : State) : Host.Outcome State Fault Refusal := atomically (seVxVyEffect x y) s

/-- 9XY0 -/
def execSneVxVy (x y : Reg) (s : State) : Host.Outcome State Fault Refusal := atomically (sneVxVyEffect x y) s

/-- BNNN -/
def execJpV0Nnn (nnn : Addr) (s : State) : Host.Outcome State Fault Refusal := atomically (jpV0NnnEffect nnn) s

end Sys2Proof.Machine
end

