-- ==== Sys2Proof/Syntax.lean ====
section
/-! DEFINITION. The 35 instructions of 30_encoding.md rule R96, one constructor per row of opcode_table.json. -/

namespace Sys2Proof

/-- An instruction with its operand fields (30_encoding.md R94, R95). -/
inductive Instr where
  /-- 00E0, R200 -/
  | cls
  /-- 00EE, R131 -/
  | ret
  /-- 0NNN, R130 -/
  | sys (nnn : Addr)
  /-- 1NNN, R132 -/
  | jp (nnn : Addr)
  /-- 2NNN, R133 -/
  | call (nnn : Addr)
  /-- 3XNN, R134 -/
  | seVxNn (x : Reg) (nn : Byte)
  /-- 4XNN, R135 -/
  | sneVxNn (x : Reg) (nn : Byte)
  /-- 5XY0, R136 -/
  | seVxVy (x y : Reg)
  /-- 6XNN, R150 -/
  | ldVxNn (x : Reg) (nn : Byte)
  /-- 7XNN, R151 -/
  | addVxNn (x : Reg) (nn : Byte)
  /-- 8XY0, R161 -/
  | ldVxVy (x y : Reg)
  /-- 8XY1, R162 -/
  | orVxVy (x y : Reg)
  /-- 8XY2, R163 -/
  | andVxVy (x y : Reg)
  /-- 8XY3, R164 -/
  | xorVxVy (x y : Reg)
  /-- 8XY4, R165 -/
  | addVxVy (x y : Reg)
  /-- 8XY5, R166 -/
  | subVxVy (x y : Reg)
  /-- 8XY6, R167 -/
  | shrVxVy (x y : Reg)
  /-- 8XY7, R168 -/
  | subnVxVy (x y : Reg)
  /-- 8XYE, R169 -/
  | shlVxVy (x y : Reg)
  /-- 9XY0, R137 -/
  | sneVxVy (x y : Reg)
  /-- ANNN, R180 -/
  | ldINnn (nnn : Addr)
  /-- BNNN, R139 -/
  | jpV0Nnn (nnn : Addr)
  /-- CXNN, R152 -/
  | rndVxNn (x : Reg) (nn : Byte)
  /-- DXYN, R201 -/
  | drwVxVyN (x y : Reg) (n : Nibble)
  /-- EX9E, R210 -/
  | skpVx (x : Reg)
  /-- EXA1, R211 -/
  | sknpVx (x : Reg)
  /-- FX07, R220 -/
  | ldVxDt (x : Reg)
  /-- FX0A, R212 -/
  | ldVxK (x : Reg)
  /-- FX15, R221 -/
  | ldDtVx (x : Reg)
  /-- FX18, R222 -/
  | ldStVx (x : Reg)
  /-- FX1E, R181 -/
  | addIVx (x : Reg)
  /-- FX29, R182 -/
  | ldFVx (x : Reg)
  /-- FX33, R183 -/
  | ldBVx (x : Reg)
  /-- FX55, R184 -/
  | ldMemVx (x : Reg)
  /-- FX65, R185 -/
  | ldVxMem (x : Reg)
  deriving DecidableEq, Repr

end Sys2Proof
end

