-- ==== Sys2Proof/Decode.lean ====
section
/-! DEFINITION. The decoder (30_encoding.md rules R92-R105), total on every word and on every byte list, and the
encoder written from the same table. -/

namespace Sys2Proof

/-- The 16-bit word whose first stored byte is `hi` (20_memory.md R63: big-endian). -/
def wordOfBytes (hi lo : Byte) : Word := hi ++ lo

/-- The two bytes of a word in storage order (R63). -/
def bytesOfWord (w : Word) : List Byte := [w.extractLsb' 8 8, w.extractLsb' 0 8]

/-- `top = op[15:12]` (R94). -/
def fieldTop (w : Word) : Nibble := w.extractLsb' 12 4

/-- `X = op[11:8]` (R94). -/
def fieldX (w : Word) : Reg := w.extractLsb' 8 4

/-- `Y = op[7:4]` (R94). -/
def fieldY (w : Word) : Reg := w.extractLsb' 4 4

/-- `N = op[3:0]` (R94). -/
def fieldN (w : Word) : Nibble := w.extractLsb' 0 4

/-- `NN = op[7:0]` (R94). -/
def fieldNN (w : Word) : Byte := w.extractLsb' 0 8

/-- `NNN = op[11:0]` (R94). -/
def fieldNNN (w : Word) : Addr := w.extractLsb' 0 12

/-- Why bytes give no instruction. -/
inductive DecodeError where
  /-- The word is in the set of R103: no handler at any nibble level. -/
  | invalidOpcode (w : Word)
  /-- Fewer than the two bytes every instruction has (R92). -/
  | truncated
  deriving DecidableEq, Repr

/-- What decoding gives: an instruction, or a rejection by name. -/
abbrev Decoded := Except DecodeError Instr

/-- Top nibble 0: two fixed constants, anything else is 0NNN (R97). -/
def decodeZero (w : Word) : Decoded :=
  match fieldNNN w with
  | 0x0E0#12 => .ok .cls
  | 0x0EE#12 => .ok .ret
  | nnn => .ok (.sys nnn)

/-- Top nibble 8: the sub-nibble N selects one of nine operations (R98). -/
def decodeEight (w : Word) : Decoded :=
  match fieldN w with
  | 0x0#4 => .ok (.ldVxVy (fieldX w) (fieldY w))
  | 0x1#4 => .ok (.orVxVy (fieldX w) (fieldY w))
  | 0x2#4 => .ok (.andVxVy (fieldX w) (fieldY w))
  | 0x3#4 => .ok (.xorVxVy (fieldX w) (fieldY w))
  | 0x4#4 => .ok (.addVxVy (fieldX w) (fieldY w))
  | 0x5#4 => .ok (.subVxVy (fieldX w) (fieldY w))
  | 0x6#4 => .ok (.shrVxVy (fieldX w) (fieldY w))
  | 0x7#4 => .ok (.subnVxVy (fieldX w) (fieldY w))
  | 0xE#4 => .ok (.shlVxVy (fieldX w) (fieldY w))
  | _ => .error (.invalidOpcode w)

/-- Top nibble E: the low byte selects EX9E or EXA1 (R99). -/
def decodeE (w : Word) : Decoded :=
  match fieldNN w with
  | 0x9E#8 => .ok (.skpVx (fieldX w))
  | 0xA1#8 => .ok (.sknpVx (fieldX w))
  | _ => .error (.invalidOpcode w)

/-- Top nibble F: the low byte selects one of nine operations (R100). -/
def decodeF (w : Word) : Decoded :=
  match fieldNN w with
  | 0x07#8 => .ok (.ldVxDt (fieldX w))
  | 0x0A#8 => .ok (.ldVxK (fieldX w))
  | 0x15#8 => .ok (.ldDtVx (fieldX w))
  | 0x18#8 => .ok (.ldStVx (fieldX w))
  | 0x1E#8 => .ok (.addIVx (fieldX w))
  | 0x29#8 => .ok (.ldFVx (fieldX w))
  | 0x33#8 => .ok (.ldBVx (fieldX w))
  | 0x55#8 => .ok (.ldMemVx (fieldX w))
  | 0x65#8 => .ok (.ldVxMem (fieldX w))
  | _ => .error (.invalidOpcode w)

/-- The decoder: first level on the top nibble (R96, R102), second level as R97-R101. -/
def decode (w : Word) : Decoded :=
  match fieldTop w with
  | 0x0#4 => decodeZero w
  | 0x1#4 => .ok (.jp (fieldNNN w))
  | 0x2#4 => .ok (.call (fieldNNN w))
  | 0x3#4 => .ok (.seVxNn (fieldX w) (fieldNN w))
  | 0x4#4 => .ok (.sneVxNn (fieldX w) (fieldNN w))
  | 0x5#4 => if fieldN w = 0x0#4 then .ok (.seVxVy (fieldX w) (fieldY w)) else .error (.invalidOpcode w)
  | 0x6#4 => .ok (.ldVxNn (fieldX w) (fieldNN w))
  | 0x7#4 => .ok (.addVxNn (fieldX w) (fieldNN w))
  | 0x8#4 => decodeEight w
  | 0x9#4 => if fieldN w = 0x0#4 then .ok (.sneVxVy (fieldX w) (fieldY w)) else .error (.invalidOpcode w)
  | 0xA#4 => .ok (.ldINnn (fieldNNN w))
  | 0xB#4 => .ok (.jpV0Nnn (fieldNNN w))
  | 0xC#4 => .ok (.rndVxNn (fieldX w) (fieldNN w))
  | 0xD#4 => .ok (.drwVxVyN (fieldX w) (fieldY w) (fieldN w))
  | 0xE#4 => decodeE w
  | _ => decodeF w -- the one nibble left, 0xF

/-- Decode the front of a byte list and return the rest: every instruction takes exactly two bytes (R92). -/
def decodeBytes : List Byte → Except DecodeError (Instr × List Byte)
  | hi :: lo :: rest =>
    match decode (wordOfBytes hi lo) with
    | .ok i => .ok (i, rest)
    | .error e => .error e
  | _ => .error .truncated

/-- The register-register form `top X Y N` (R93). -/
def formXYN (top : Nibble) (x y : Reg) (n : Nibble) : Word := (top ++ x) ++ (y ++ n)

/-- The register-immediate form `top X NN` (R93). -/
def formXNN (top : Nibble) (x : Reg) (nn : Byte) : Word := (top ++ x) ++ nn

/-- The address form `top NNN` (R93). -/
def formNNN (top : Nibble) (nnn : Addr) : Word := top ++ nnn

/-- The encoder: the word of an instruction, from the map of R96. -/
def encode : Instr → Word
  | .cls => 0x00E0#16
  | .ret => 0x00EE#16
  | .sys nnn => formNNN 0x0 nnn
  | .jp nnn => formNNN 0x1 nnn
  | .call nnn => formNNN 0x2 nnn
  | .seVxNn x nn => formXNN 0x3 x nn
  | .sneVxNn x nn => formXNN 0x4 x nn
  | .seVxVy x y => formXYN 0x5 x y 0x0
  | .ldVxNn x nn => formXNN 0x6 x nn
  | .addVxNn x nn => formXNN 0x7 x nn
  | .ldVxVy x y => formXYN 0x8 x y 0x0
  | .orVxVy x y => formXYN 0x8 x y 0x1
  | .andVxVy x y => formXYN 0x8 x y 0x2
  | .xorVxVy x y => formXYN 0x8 x y 0x3
  | .addVxVy x y => formXYN 0x8 x y 0x4
  | .subVxVy x y => formXYN 0x8 x y 0x5
  | .shrVxVy x y => formXYN 0x8 x y 0x6
  | .subnVxVy x y => formXYN 0x8 x y 0x7
  | .shlVxVy x y => formXYN 0x8 x y 0xE
  | .sneVxVy x y => formXYN 0x9 x y 0x0
  | .ldINnn nnn => formNNN 0xA nnn
  | .jpV0Nnn nnn => formNNN 0xB nnn
  | .rndVxNn x nn => formXNN 0xC x nn
  | .drwVxVyN x y n => formXYN 0xD x y n
  | .skpVx x => formXNN 0xE x 0x9E
  | .sknpVx x => formXNN 0xE x 0xA1
  | .ldVxDt x => formXNN 0xF x 0x07
  | .ldVxK x => formXNN 0xF x 0x0A
  | .ldDtVx x => formXNN 0xF x 0x15
  | .ldStVx x => formXNN 0xF x 0x18
  | .addIVx x => formXNN 0xF x 0x1E
  | .ldFVx x => formXNN 0xF x 0x29
  | .ldBVx x => formXNN 0xF x 0x33
  | .ldMemVx x => formXNN 0xF x 0x55
  | .ldVxMem x => formXNN 0xF x 0x65

/-- The bytes of an instruction in storage order (R63). -/
def encodeBytes (i : Instr) : List Byte := bytesOfWord (encode i)

/-- The word of an instruction whose low `nbits` bits are `w` and whose other bits are 0. -/
def tableWord (nbits w : Nat) : Word := BitVec.ofNat 16 (w % 2 ^ nbits)

/-- What the decoder reads from an instruction given as opcode_table.json numbers its bits: the word is laid out in
storage order and handed to the decoder. -/
def decodeTableWord (nbits w : Nat) : Option Instr :=
  match decodeBytes (bytesOfWord (tableWord nbits w)) with
  | .ok (i, _) => some i
  | .error _ => none

end Sys2Proof
end

