-- ==== Sys2Proof/Machine/Fetch.lean ====
section
/-! DEFINITION. Fetching a word and decoding it (30_encoding.md R90, R91), and placing a word where the next fetch
finds it. -/

namespace Sys2Proof.Machine

/-- `MemRead(a, 2)`: the big-endian word at `a`, or OutOfBoundsAddress (R91, 20_memory.md R63). -/
def wordAt (s : State) (a : Nat) : Except Fault Word :=
  if inSpace a 2 then .ok (wordOfBytes (s.memByte a) (s.memByte (a + 1))) else .error .outOfBoundsAddress

/-- The instruction stored at `a`: the bounds are checked first, then the word is decoded (60_exceptions.md R236). -/
def instrAt (s : State) (a : Nat) : Except Fault Instr :=
  match wordAt s a with
  | .error k => .error k
  | .ok w =>
    match decode w with
    | .ok i => .ok i
    | .error _ => .error .invalidOpcode

/-- The instruction at the pc. -/
def fetchInstr (s : State) : Except Fault Instr := instrAt s s.pc.toNat

/-- A table word's two bytes stored at the pc, the core running inside a frame with its whole budget left, so that
the very next step fetches it. Where the pc leaves no room for a word, nothing is stored. -/
def placeFetchWord (nbits w : Nat) (s : State) : State :=
  { s with
    mem := if inSpace s.pc.toNat 2 then Memory.writeBytes s.cfg s.mem s.pc.toNat (bytesOfWord (tableWord nbits w))
           else s.mem
    halted := false
    faultKind := none
    inFrame := true
    executed := 0
    frameOver := false }

end Sys2Proof.Machine
end

