-- ==== Sys2Proof/Machine/Immediate.lean ====
section
/-! DEFINITION. Register/immediate instructions (41_register_immediate.md R150-R152). Each `…Effect` is the rule's
pseudocode on the state with the pc advanced; each `exec…` is the whole instruction. -/

namespace Sys2Proof.Machine

/-- R150 -/
def ldVxNnEffect (x : Reg) (nn : Byte) (s : State) : Effect := .ok (s.writeV x nn)

/-- R151: no flag. -/
def addVxNnEffect (x : Reg) (nn : Byte) (s : State) : Effect := .ok (s.writeV x (sum8 (s.readV x) nn))

/-- R152: the random byte is a free value, one per execution (log entry 3). -/
def rndVxNnEffect (x : Reg) (nn : Byte) (s : State) : Effect :=
  .ok ((s.writeV x (Config.freeRnd s.freeCount &&& nn)).drawFree)

/-- 6XNN -/
def execLdVxNn (x : Reg) (nn : Byte) (s : State) : Host.Outcome State Fault Refusal :=
  atomically (ldVxNnEffect x nn) s

/-- 7XNN -/
def execAddVxNn (x : Reg) (nn : Byte) (s : State) : Host.Outcome State Fault Refusal :=
  atomically (addVxNnEffect x nn) s

/-- CXNN -/
def execRndVxNn (x : Reg) (nn : Byte) (s : State) : Host.Outcome State Fault Refusal :=
  atomically (rndVxNnEffect x nn) s

end Sys2Proof.Machine
end

