-- ==== Sys2Proof/Machine/Index.lean ====
section
/-! DEFINITION. Memory and index instructions (43_memory_index.md R180-R185). -/

namespace Sys2Proof.Machine

/-- R180 -/
def ldINnnEffect (nnn : Addr) (s : State) : Effect := .ok (s.writeI nnn.toNat)

/-- R181: masked to 12 bits, no flag. -/
def addIVxEffect (x : Reg) (s : State) : Effect := .ok (s.writeI (s.i.toNat + (s.readV x).toNat))

/-- R182: the high nibble of VX is ignored; no memory access. -/
def ldFVxEffect (x : Reg) (s : State) : Effect := .ok (s.writeI (glyphAddr (s.readV x)))

/-- R183: three digits at I..I+2, checked as one range; I unchanged. -/
def ldBVxEffect (x : Reg) (s : State) : Effect := s.memWrite s.i.toNat (decimalDigits (s.readV x))

/-- R184: V0..VX to I..I+X, checked as one range; then I advances. -/
def ldMemVxEffect (x : Reg) (s : State) : Effect :=
  match s.memWrite s.i.toNat (registerBlock s.v x) with
  | .ok t => .ok (t.advanceIndex x)
  | .error k => .error k

/-- R185: I..I+X to V0..VX, checked as one range; then I advances. -/
def ldVxMemEffect (x : Reg) (s : State) : Effect :=
  match s.memRead s.i.toNat (x.toNat + 1) with
  | .ok bs => .ok ((s.setV (loadBlock bs 0 s.v)).advanceIndex x)
  | .error k => .error k

/-- ANNN -/
def execLdINnn (nnn : Addr) (s : State) : Host.Outcome State Fault Refusal := atomically (ldINnnEffect nnn) s

/-- FX1E -/
def execAddIVx (x : Reg) (s : State) : Host.Outcome State Fault Refusal := atomically (addIVxEffect x) s

/-- FX29 -/
def execLdFVx (x : Reg) (s : State) : Host.Outcome State Fault Refusal := atomically (ldFVxEffect x) s

/-- FX33 -/
def execLdBVx (x : Reg) (s : State) : Host.Outcome State Fault Refusal := atomically (ldBVxEffect x) s

/-- FX55 -/
def execLdMemVx (x : Reg) (s : State) : Host.Outcome State Fault Refusal := atomically (ldMemVxEffect x) s

/-- FX65 -/
def execLdVxMem (x : Reg) (s : State) : Host.Outcome State Fault Refusal := atomically (ldVxMemEffect x) s

end Sys2Proof.Machine
end

