-- ==== Sys2Proof/Machine/Input.lean ====
section
/-! DEFINITION. Input instructions (45_input.md R210-R212). -/

namespace Sys2Proof.Machine

/-- R210 -/
def skpVxEffect (x : Reg) (s : State) : Effect := .ok (s.skipIf (keyDown s.key (lowNibble (s.readV x))))

/-- R211 -/
def sknpVxEffect (x : Reg) (s : State) : Effect := .ok (s.skipIf (!keyDown s.key (lowNibble (s.readV x))))

/-- R212: with no released key the pc is rewound and the frame ends; else VX receives one of the released keys, which
one is a free value (log entry 3). -/
def ldVxKEffect (x : Reg) (s : State) : Effect :=
  match releasedKeys s.prevKey s.key with
  | [] => .ok s.rewind.endFrameEarly
  | k :: ks => .ok ((s.writeV x (keyByte (pickKey (k :: ks) (Config.freePick s.freeCount)))).drawFree)

/-- EX9E -/
def execSkpVx (x : Reg) (s : State) : Host.Outcome State Fault Refusal := atomically (skpVxEffect x) s

/-- EXA1 -/
def execSknpVx (x : Reg) (s : State) : Host.Outcome State Fault Refusal := atomically (sknpVxEffect x) s

/-- FX0A -/
def execLdVxK (x : Reg) (s : State) : Host.Outcome State Fault Refusal := atomically (ldVxKEffect x) s

end Sys2Proof.Machine
end

