-- ==== Sys2Proof/Machine/Screen.lean ====
section
/-! DEFINITION. Display instructions (44_display.md R200, R201). -/

namespace Sys2Proof.Machine

/-- A display together with the collision bit found so far. -/
abbrev Canvas := Display × Bool

/-- One sprite bit: a set bit on an unclipped cell notes a collision if the cell is lit, and inverts it (R201). -/
def drawBit (x y : Nat) (bit : Bool) (p : Canvas) : Canvas :=
  if bit && decide (x < 64) && decide (y < 32) then (Display.invert p.1 x y, p.2 || Display.cell p.1 x y) else p

/-- One sprite row at row `y`, `for c in 0..7`, bit 7 leftmost (R201). -/
def drawRow (x0 y : Nat) (row : Byte) (p : Canvas) : Canvas :=
  (List.range 8).foldl (fun q c => drawBit (x0 + c) y (row.getLsbD (7 - c)) q) p

/-- The sprite's rows downwards from row `y`; rows past the edge are clipped by `drawBit` (R201). -/
def drawRows (x0 : Nat) : Nat → List Byte → Canvas → Canvas
  | _, [], p => p
  | y, row :: rows, p => drawRows x0 (y + 1) rows (drawRow x0 y row p)

/-- R200 -/
def clsEffect (s : State) : Effect := .ok (s.setDisplay Display.clear)

/-- R201: coordinates are read before VF is written, all N bytes are read and checked before any cell changes, VF
is the collision, and the frame is over. -/
def drwVxVyNEffect (x y : Reg) (n : Nibble) (s : State) : Effect :=
  match s.memRead s.i.toNat n.toNat with
  | .error k => .error k
  | .ok rows =>
    let p := drawRows (originX (s.readV x)) (originY (s.readV y)) rows (s.display, false)
    .ok (((s.setDisplay p.1).writeV regF (flagByte p.2)).endFrameEarly)

/-- 00E0 -/
def execCls (s : State) : Host.Outcome State Fault Refusal := atomically clsEffect s

/-- DXYN -/
def execDrwVxVyN (x y : Reg) (n : Nibble) (s : State) : Host.Outcome State Fault Refusal :=
  atomically (drwVxVyNEffect x y n) s

end Sys2Proof.Machine
end

