-- ==== Sys2Proof/Machine/Timers.lean ====
section
/-! DEFINITION. Timer instructions (46_timers.md R220-R222) and the countdown (60_exceptions.md R240). -/

namespace Sys2Proof.Machine

/-- R240: decremented by one, floor at 0. -/
def tick (t : Byte) : Byte := if t = 0 then 0 else t - 1

/-- R220 -/
def ldVxDtEffect (x : Reg) (s : State) : Effect := .ok (s.writeV x s.dt)

/-- R221 -/
def ldDtVxEffect (x : Reg) (s : State) : Effect := .ok (s.writeDt (s.readV x))

/-- R222 -/
def ldStVxEffect (x : Reg) (s : State) : Effect := .ok (s.writeSt (s.readV x))

/-- FX07 -/
def execLdVxDt (x : Reg) (s : State) : Host.Outcome State Fault Refusal := atomically (ldVxDtEffect x) s

/-- FX15 -/
def execLdDtVx (x : Reg) (s : State) : Host.Outcome State Fault Refusal := atomically (ldDtVxEffect x) s

/-- FX18 -/
def execLdStVx (x : Reg) (s : State) : Host.Outcome State Fault Refusal := atomically (ldStVxEffect x) s

end Sys2Proof.Machine
end

