-- ==== Sys2Proof/Machine/PassThrough.lean ====
section
/-! DEFINITION. 0NNN, the pass-through (40_control_flow.md R130): it executes the word stored at NNN in its own
place, the pc staying the 0NNN's address + 2. -/

namespace Sys2Proof.Machine

/-- The handler table of R96: the pseudocode of each instruction, 0NNN's given from outside. -/
def effectOf (onSys : Addr → State → Effect) (i : Instr) (s : State) : Effect :=
  match i with
  | .sys nnn => onSys nnn s
  | .cls => clsEffect s
  | .ret => retEffect s
  | .jp nnn => jpEffect nnn s
  | .call nnn => callEffect nnn s
  | .seVxNn x nn => seVxNnEffect x nn s
  | .sneVxNn x nn => sneVxNnEffect x nn s
  | .seVxVy x y => seVxVyEffect x y s
  | .ldVxNn x nn => ldVxNnEffect x nn s
  | .addVxNn x nn => addVxNnEffect x nn s
  | .ldVxVy x y => ldVxVyEffect x y s
  | .orVxVy x y => orVxVyEffect x y s
  | .andVxVy x y => andVxVyEffect x y s
  | .xorVxVy x y => xorVxVyEffect x y s
  | .addVxVy x y => addVxVyEffect x y s
  | .subVxVy x y => subVxVyEffect x y s
  | .shrVxVy x y => shrVxVyEffect x y s
  | .subnVxVy x y => subnVxVyEffect x y s
  | .shlVxVy x y => shlVxVyEffect x y s
  | .sneVxVy x y => sneVxVyEffect x y s
  | .ldINnn nnn => ldINnnEffect nnn s
  | .jpV0Nnn nnn => jpV0NnnEffect nnn s
  | .rndVxNn x nn => rndVxNnEffect x nn s
  | .drwVxVyN x y n => drwVxVyNEffect x y n s
  | .skpVx x => skpVxEffect x s
  | .sknpVx x => sknpVxEffect x s
  | .ldVxDt x => ldVxDtEffect x s
  | .ldVxK x => ldVxKEffect x s
  | .ldDtVx x => ldDtVxEffect x s
  | .ldStVx x => ldStVxEffect x s
  | .addIVx x => addIVxEffect x s
  | .ldFVx x => ldFVxEffect x s
  | .ldBVx x => ldBVxEffect x s
  | .ldMemVx x => ldMemVxEffect x s
  | .ldVxMem x => ldVxMemEffect x s

/-- R130 at nesting level SYS_DEPTH_MAX - `left`, on the state with the pc advanced (the spec's reading, D12: log
entry 9). -/
def sysAt : Nat → Addr → State → Effect
  | 0, _, s => .error (if s.cfg.sysMode = .refuse then .refused else .sysDepthExceeded)
  | left + 1, nnn, s =>
    if s.cfg.sysMode = .refuse then .error .refused
    else
      match instrAt s nnn.toNat with
      | .error k => .error k
      | .ok i => effectOf (sysAt left) i s

/-- `Execute(op, depth)` of R90 and R130, where `left` is SYS_DEPTH_MAX - depth. -/
def executeAt (left : Nat) (i : Instr) (s : State) : Effect := effectOf (sysAt left) i s

/-- R130 for a fetched 0NNN: depth 0. -/
def sysEffect (nnn : Addr) (s : State) : Effect := sysAt s.cfg.sysDepthMax nnn s

/-- 0NNN -/
def execSys (nnn : Addr) (s : State) : Host.Outcome State Fault Refusal := atomically (sysEffect nnn) s

end Sys2Proof.Machine
end

