-- ==== Sys2Proof/Machine/Frame.lean ====
section
/-! DEFINITION. The parts of FRAME(keys) (60_exceptions.md R250): its start, its loop test, its count, its end; and
the block's outputs (00_scope.md R7). -/

namespace Sys2Proof.Machine

/-- What FRAME(keys) does before its first instruction: nothing when halted (R234), else the key snapshot, the timer
countdown and fresh frame-local counters. -/
def beginFrame (keys : Keys) (s : State) : State :=
  if s.halted then s
  else
    { s with
      prevKey := s.key
      key := keys
      dt := tick s.dt
      st := tick s.st
      inFrame := true
      executed := 0
      frameOver := false }

/-- The host invokes the next FRAME: its key vector is a free value (log entry 3). A halted core takes nothing. -/
def openFrame (s : State) : State :=
  if s.halted then s else beginFrame (Config.freeKeys s.freeCount) s.drawFree

/-- `executed < IPF and frame_over = 0 and halted = 0` (R250). -/
def frameGoesOn (s : State) : Bool := decide (s.executed < s.cfg.ipf) && !s.frameOver && !s.halted

/-- `executed <- executed + 1` (R250, R251). -/
def countStep (s : State) : State := { s with executed := s.executed + 1 }

/-- The FRAME operation returns; its frame-local state is discarded (R45). -/
def endFrame (s : State) : State := { s with inFrame := false, executed := 0, frameOver := false }

/-- What one instruction step of a frame leaves, counted. -/
def counted : Host.Outcome State Fault Refusal → Host.Outcome State Fault Refusal
  | .next t => .next (countStep t)
  | .fault k => .fault k
  | .refused r => .refused r

/-- The output `sound_active` (10_state.md R38). -/
def State.soundActive (s : State) : Bool := s.st != 0

/-- The number of a fault kind (R230). -/
def Fault.code : Fault → Nat
  | .invalidOpcode => 1
  | .invalidRegister => 2
  | .outOfBoundsAddress => 3
  | .emptyStackUnderflow => 4
  | .stackOverflow => 5
  | .sysDepthExceeded => 6
  | .refused => 7

/-- The output `fault_kind`, 0 while there is none (R230). -/
def State.faultCode (s : State) : Nat :=
  match s.faultKind with
  | none => 0
  | some k => k.code

end Sys2Proof.Machine
end

