-- ==== Sys2Proof/Machine/Step.lean ====
section
/-! DEFINITION. One step of the machine: a FRAME begins, one instruction step runs, or the FRAME ends
(60_exceptions.md R250, 30_encoding.md R90). -/

namespace Sys2Proof.Machine

/-- R90: fetch, then run the instruction; a fault of the fetch is entered like any other. -/
def instructionStep (s : State) : Host.Outcome State Fault Refusal :=
  match fetchInstr s with
  | .ok i => exec i s
  | .error k => .next (s.enterFault k)

/-- R250, one transition at a time. -/
def step (s : State) : Host.Outcome State Fault Refusal :=
  if s.inFrame then
    if frameGoesOn s then counted (instructionStep s) else .next (endFrame s)
  else .next (openFrame s)

/-- The state whose very next step fetches and runs the given instruction (log entry 1 says how a program comes to
run from reset). -/
def State.withFetchWord (s : State) (nbits w : Nat) : State := placeFetchWord nbits w s

end Sys2Proof.Machine
end

