-- ==== Sys2Proof/Machine/HostOps.lean ====
section
/-! DEFINITION. The block's two operations as the host sees them: LOAD(image) (70_reset_and_hazards.md R270-R272)
and FRAME(keys) as a whole (60_exceptions.md R250). `step` runs FRAME one transition at a time. -/

namespace Sys2Proof.Machine

/-- LOAD(image) on a machine with configuration `c`: a fresh state whatever came before, or no machine when the image
does not fit (R271; log entry 8). -/
def load (c : Config) (image : List Byte) : Option State :=
  if image.length ≤ memSize - c.entry.toNat then
    some { State.initial c with mem := Memory.writeBytes c (State.initial c).mem c.entry.toNat image }
  else none

/-- R250's loop, `fuel` passes at most. -/
def frameLoop : Nat → State → State
  | 0, s => s
  | fuel + 1, s =>
    if frameGoesOn s then
      match counted (instructionStep s) with
      | .next t => frameLoop fuel t
      | .fault _ => s
      | .refused _ => s
    else s

/-- FRAME(keys) (R250): a halted core does nothing (R234). -/
def frame (keys : Keys) (s : State) : State :=
  if s.halted then s else endFrame (frameLoop s.cfg.ipf (beginFrame keys s))

end Sys2Proof.Machine
end

