-- ==== Sys2Proof/Safety.lean ====
section
/-! DEFINITION. The terms in which claims are stated: the invariant of the machine's state, which parts of a state a
transition may change, and the cells a sprite covers. -/

namespace Sys2Proof.Machine

/-- What every reachable state satisfies. -/
structure State.Inv (s : State) : Prop where
  /-- The parameters lie in R10's ranges. -/
  cfgWf : s.cfg.wf
  /-- Memory is in canonical form, the model's own (log entry 12). -/
  memWf : Memory.wf s.cfg s.mem
  /-- `I[15:12] = 0` (10_state.md R25). -/
  indexBound : s.i.toNat < 4096
  /-- The pc never exceeds 0x10FE (R29). -/
  pcBound : s.pc.toNat ≤ 0x10FE
  /-- `0 <= SP <= STACK_DEPTH` (R32). -/
  spBound : s.sp ≤ s.cfg.stackDepth
  /-- Every entry was pushed after a fetch (R29). -/
  entryBound : ∀ w ∈ s.stack, w.toNat ≤ 0x1000
  /-- `fault_kind` is none exactly while not halted (60_exceptions.md R230). -/
  haltedKind : s.halted = true ↔ s.faultKind ≠ none
  /-- No rule raises InvalidRegister (R23, the spec's own choice D27; log entry 22). -/
  noInvalidRegister : s.faultKind ≠ some .invalidRegister
  /-- `executed` is 0..IPF (R45). -/
  budget : s.executed ≤ s.cfg.ipf
  /-- Frame-local state exists only during a FRAME (R45); that it is held at 0 and false outside is the model's choice
  (log entry 2). -/
  frameLocal : s.inFrame = false → s.executed = 0 ∧ s.frameOver = false

/-- The parts of the state, each named as State names it. -/
inductive Part where
  | v | i | pc | stack | dt | st | mem | display | key | prevKey | halted | faultKind | inFrame | executed
  | frameOver | freeCount | cfg
  deriving DecidableEq, Repr

/-- The part is the same in both states: registers and memory as they read, the rest as data. -/
def Part.same : Part → State → State → Prop
  | .v, s, t => ∀ k, t.readV k = s.readV k
  | .i, s, t => t.i = s.i
  | .pc, s, t => t.pc = s.pc
  | .stack, s, t => t.stack = s.stack
  | .dt, s, t => t.dt = s.dt
  | .st, s, t => t.st = s.st
  | .mem, s, t => ∀ a, t.memByte a = s.memByte a
  | .display, s, t => t.display = s.display
  | .key, s, t => t.key = s.key
  | .prevKey, s, t => t.prevKey = s.prevKey
  | .halted, s, t => t.halted = s.halted
  | .faultKind, s, t => t.faultKind = s.faultKind
  | .inFrame, s, t => t.inFrame = s.inFrame
  | .executed, s, t => t.executed = s.executed
  | .frameOver, s, t => t.frameOver = s.frameOver
  | .freeCount, s, t => t.freeCount = s.freeCount
  | .cfg, s, t => t.cfg = s.cfg

/-- Every part but those listed is the same in both states. -/
def changesOnly (parts : List Part) (s t : State) : Prop := ∀ p, p ∉ parts → p.same s t

/-- Every register outside `xs` reads as before. -/
def keepsRegsBut (xs : List Reg) (s t : State) : Prop := ∀ k, k ∉ xs → t.readV k = s.readV k

/-- The step ended in a fault of kind `k`: the state before it, halted, with the kind recorded (R232). -/
def faultsWith (i : Instr) (s : State) (k : Fault) : Prop :=
  exec i s = .next { s with halted := true, faultKind := some k }

/-- Whether the sprite of `n` rows at I, drawn from column `x0` and row `y0`, has a set bit over cell (cx, cy)
(44_display.md R201, R202). -/
def spriteCovers (s : State) (x0 y0 n cx cy : Nat) : Bool :=
  decide (y0 ≤ cy) && decide (cy < y0 + n) && decide (x0 ≤ cx) && decide (cx < x0 + 8)
    && (s.memByte (s.i.toNat + (cy - y0))).getLsbD (7 - (cx - x0))

/-- What the writers' and readers' rules (R22, R26, R28, R31, R36, R37, R40, R41) let a completed instruction change;
0NNN changes what the word it executes changes and is not listed. -/
def writes : Instr → List Part
  | .cls => [.pc, .display]
  | .ret => [.pc, .stack]
  | .sys _ => []
  | .jp _ | .jpV0Nnn _ => [.pc]
  | .call _ => [.pc, .stack]
  | .seVxNn _ _ | .sneVxNn _ _ | .seVxVy _ _ | .sneVxVy _ _ | .skpVx _ | .sknpVx _ => [.pc]
  | .ldVxNn _ _ | .addVxNn _ _ | .ldVxVy _ _ | .orVxVy _ _ | .andVxVy _ _ | .xorVxVy _ _ | .addVxVy _ _
  | .subVxVy _ _ | .shrVxVy _ _ | .subnVxVy _ _ | .shlVxVy _ _ | .ldVxDt _ => [.pc, .v]
  | .rndVxNn _ _ => [.pc, .v, .freeCount]
  | .ldINnn _ | .addIVx _ | .ldFVx _ => [.pc, .i]
  | .drwVxVyN _ _ _ => [.pc, .v, .display, .frameOver]
  | .ldVxK _ => [.pc, .v, .frameOver, .freeCount]
  | .ldDtVx _ => [.pc, .dt]
  | .ldStVx _ => [.pc, .st]
  | .ldBVx _ => [.pc, .mem]
  | .ldMemVx _ => [.pc, .mem, .i]
  | .ldVxMem _ => [.pc, .v, .i]

/-- R231 for every instruction but 0NNN: the fault it raises in a state, if any. -/
def ownFault (s : State) : Instr → Option Fault
  | .ret => if s.sp = 0 then some .emptyStackUnderflow else none
  | .call _ => if s.cfg.stackDepth ≤ s.sp then some .stackOverflow else none
  | .drwVxVyN _ _ n =>
    if 0 < n.toNat ∧ 0xFFF < s.i.toNat + n.toNat - 1 then some .outOfBoundsAddress else none
  | .ldBVx _ => if 0xFFF < s.i.toNat + 2 then some .outOfBoundsAddress else none
  | .ldMemVx x | .ldVxMem x => if 0xFFF < s.i.toNat + x.toNat then some .outOfBoundsAddress else none
  | _ => none

/-- R130's chain of stored words from `a`, at most `n` of them: the first instruction that is not a 0NNN, or the fault
that the chain itself meets. -/
def chainResult : Nat → State → Addr → Except Fault Instr
  | 0, _, _ => .error .sysDepthExceeded
  | n + 1, s, a =>
    match instrAt s a.toNat with
    | .ok (.sys m) => chainResult n s m
    | .ok i => .ok i
    | .error k => .error k

end Sys2Proof.Machine
end

