-- ==== Sys2Proof/Certificates/Slice0/Obligations.lean ====
section
/-! DEFINITION. The statements for the provers, in the spec's terms. Each docstring names the rules it formalises;
the configuration and the free values are arbitrary in all of them. -/

open Sys2Proof Sys2Proof.Machine

/-! ## Encoding -/

/-- R93-R96: decoding an instruction's word gives it back, with every operand at every value. -/
def Obligations.DecodeOfEncode : Prop :=
  ∀ i : Instr, i.wf = true → decode (encode i) = .ok i ∧ decodeBytes (encodeBytes i) = .ok (i, [])

/-- R96, R105: a word that decodes is the word of the instruction it decodes to, and that instruction is one of the
machine's: no two words mean one instruction and no two instructions share a word. -/
def Obligations.EncodeOfDecode : Prop :=
  ∀ (w : Word) (i : Instr), decode w = .ok i → i.wf = true ∧ encode i = w

/-- R97: under top nibble 0 two constants are CLS and RET and every other word is 0NNN, wherever it is stored. That
0x00E0 is CLS is numbering from general knowledge, the spec's own choice (R96, N7, D32; log entry 5). -/
def Obligations.TopNibbleZeroNeverInvalid : Prop :=
  ∀ (nnn : Addr) (s : State) (a : Nat), wordAt s a = .ok (formNNN 0x0 nnn) →
    (nnn = 0x0E0 → instrAt s a = .ok .cls) ∧ (nnn = 0x0EE → instrAt s a = .ok .ret) ∧
    (nnn ≠ 0x0E0 → nnn ≠ 0x0EE → instrAt s a = .ok (.sys nnn))

/-- R98: the nine sub-nibbles of top nibble 8, and the seven that raise InvalidOpcode. Which sub-nibble is which
operation is the numbering of R96, from general knowledge and the spec's own choice (D32; log entry 5). -/
def Obligations.TopNibbleEightBySubNibble : Prop :=
  ∀ (x y : Reg) (n : Nibble) (s : State) (a : Nat), wordAt s a = .ok (formXYN 0x8 x y n) →
    (n = 0x0 → instrAt s a = .ok (.ldVxVy x y)) ∧ (n = 0x1 → instrAt s a = .ok (.orVxVy x y)) ∧
    (n = 0x2 → instrAt s a = .ok (.andVxVy x y)) ∧ (n = 0x3 → instrAt s a = .ok (.xorVxVy x y)) ∧
    (n = 0x4 → instrAt s a = .ok (.addVxVy x y)) ∧ (n = 0x5 → instrAt s a = .ok (.subVxVy x y)) ∧
    (n = 0x6 → instrAt s a = .ok (.shrVxVy x y)) ∧ (n = 0x7 → instrAt s a = .ok (.subnVxVy x y)) ∧
    (n = 0xE → instrAt s a = .ok (.shlVxVy x y)) ∧
    (n ∈ [0x8#4, 0x9#4, 0xA#4, 0xB#4, 0xC#4, 0xD#4, 0xF#4] → instrAt s a = .error .invalidOpcode)

/-- R99, R100: the low bytes of top nibbles E and F, and InvalidOpcode for every other one. The low bytes and which
operation each selects are the numbering of R96, from general knowledge and the spec's own choice (D32; log entry 5). -/
def Obligations.TopNibblesEAndFByLowByte : Prop :=
  ∀ (x : Reg) (nn : Byte) (s : State) (a : Nat),
    (wordAt s a = .ok (formXNN 0xE x nn) →
      (nn = 0x9E → instrAt s a = .ok (.skpVx x)) ∧ (nn = 0xA1 → instrAt s a = .ok (.sknpVx x)) ∧
      (nn ∉ [0x9E#8, 0xA1#8] → instrAt s a = .error .invalidOpcode)) ∧
    (wordAt s a = .ok (formXNN 0xF x nn) →
      (nn = 0x07 → instrAt s a = .ok (.ldVxDt x)) ∧ (nn = 0x0A → instrAt s a = .ok (.ldVxK x)) ∧
      (nn = 0x15 → instrAt s a = .ok (.ldDtVx x)) ∧ (nn = 0x18 → instrAt s a = .ok (.ldStVx x)) ∧
      (nn = 0x1E → instrAt s a = .ok (.addIVx x)) ∧ (nn = 0x29 → instrAt s a = .ok (.ldFVx x)) ∧
      (nn = 0x33 → instrAt s a = .ok (.ldBVx x)) ∧ (nn = 0x55 → instrAt s a = .ok (.ldMemVx x)) ∧
      (nn = 0x65 → instrAt s a = .ok (.ldVxMem x)) ∧
      (nn ∉ [0x07#8, 0x0A#8, 0x15#8, 0x18#8, 0x1E#8, 0x29#8, 0x33#8, 0x55#8, 0x65#8] →
        instrAt s a = .error .invalidOpcode))

/-- R101, R102 with the patterns of R96: top nibbles 5 and 9 check N (the spec's decision D11); every word of the
other ten is valid. Apart from 2NNN and 6XNN the numbers are those of R96 from general knowledge, the spec's own
choice (D32; log entry 5). -/
def Obligations.FirstLevelDispatch : Prop :=
  ∀ (x y : Reg) (n : Nibble) (nn : Byte) (nnn : Addr) (s : State) (a : Nat),
    (wordAt s a = .ok (formXYN 0x5 x y n) →
      instrAt s a = if n = 0 then .ok (.seVxVy x y) else .error .invalidOpcode) ∧
    (wordAt s a = .ok (formXYN 0x9 x y n) →
      instrAt s a = if n = 0 then .ok (.sneVxVy x y) else .error .invalidOpcode) ∧
    (wordAt s a = .ok (formNNN 0x1 nnn) → instrAt s a = .ok (.jp nnn)) ∧
    (wordAt s a = .ok (formNNN 0x2 nnn) → instrAt s a = .ok (.call nnn)) ∧
    (wordAt s a = .ok (formXNN 0x3 x nn) → instrAt s a = .ok (.seVxNn x nn)) ∧
    (wordAt s a = .ok (formXNN 0x4 x nn) → instrAt s a = .ok (.sneVxNn x nn)) ∧
    (wordAt s a = .ok (formXNN 0x6 x nn) → instrAt s a = .ok (.ldVxNn x nn)) ∧
    (wordAt s a = .ok (formXNN 0x7 x nn) → instrAt s a = .ok (.addVxNn x nn)) ∧
    (wordAt s a = .ok (formNNN 0xA nnn) → instrAt s a = .ok (.ldINnn nnn)) ∧
    (wordAt s a = .ok (formNNN 0xB nnn) → instrAt s a = .ok (.jpV0Nnn nnn)) ∧
    (wordAt s a = .ok (formXNN 0xC x nn) → instrAt s a = .ok (.rndVxNn x nn)) ∧
    (wordAt s a = .ok (formXYN 0xD x y n) → instrAt s a = .ok (.drwVxVyN x y n))

/-- R96: words written out from the rules' own examples decode to the instructions they stand for. Most numbers are
the spec's own choice (D32; log entry 5). -/
def Obligations.SpecExampleWordsDecode : Prop :=
  decode 0x00E0 = .ok .cls ∧ decode 0x00EE = .ok .ret ∧ decode 0x0300 = .ok (.sys 0x300) ∧
  decode 0x1228 = .ok (.jp 0x228) ∧ decode 0x6A42 = .ok (.ldVxNn 0xA 0x42) ∧
  decode 0x8124 = .ok (.addVxVy 0x1 0x2) ∧ decode 0xA2F0 = .ok (.ldINnn 0x2F0) ∧
  decode 0xD125 = .ok (.drwVxVyN 0x1 0x2 0x5) ∧ decode 0xE49E = .ok (.skpVx 0x4) ∧
  decode 0xF307 = .ok (.ldVxDt 0x3) ∧ decode 0xF255 = .ok (.ldMemVx 0x2)

/-! ## The step, the frame, faults -/

/-- R90, R91: inside a frame that goes on, the two bytes at the pc, big-endian, are decoded and the instruction runs;
the frame counts it. The byte order is the spec's own choice (D2; log entry 5). -/
def Obligations.StepRunsTheFetchedInstruction : Prop :=
  ∀ (s t : State) (i : Instr), s.inFrame = true → s.executed < s.cfg.ipf → s.frameOver = false → s.halted = false →
    s.pc.toNat + 1 ≤ 0xFFF → decode (wordOfBytes (s.memByte s.pc.toNat) (s.memByte (s.pc.toNat + 1))) = .ok i →
    exec i s = .next t → step s = .next { t with executed := t.executed + 1 }

/-- R91: a fetch whose second byte lies outside the space faults, whatever the bytes are. That the fetch faults, and
the state after it, are the spec's own choices (D8, D9). -/
def Obligations.FetchOutsideSpaceFaults : Prop :=
  ∀ s : State, s.inFrame = true → s.executed < s.cfg.ipf → s.frameOver = false → s.halted = false →
    0xFFF < s.pc.toNat + 1 →
    step s = .next { s with halted := true, faultKind := some .outOfBoundsAddress, executed := s.executed + 1 }

/-- R103, R232, R236: the decoder rejects exactly the words of R103's list, and a fetched one halts the core with
InvalidOpcode and nothing else changed. The rows 5XYN and 9XYN, the numbers of the others and the state after the
fault are the spec's own choices (D11, D32, D9; log entries 13, 5, 7). -/
def Obligations.InvalidWordsHaltTheCore : Prop :=
  (∀ w : Word, decode w = .error (.invalidOpcode w) ↔
    (fieldTop w = 0x5 ∧ fieldN w ≠ 0) ∨
    (fieldTop w = 0x8 ∧ fieldN w ∈ [0x8#4, 0x9#4, 0xA#4, 0xB#4, 0xC#4, 0xD#4, 0xF#4]) ∨
    (fieldTop w = 0x9 ∧ fieldN w ≠ 0) ∨
    (fieldTop w = 0xE ∧ fieldNN w ∉ [0x9E#8, 0xA1#8]) ∨
    (fieldTop w = 0xF ∧
      fieldNN w ∉ [0x07#8, 0x0A#8, 0x15#8, 0x18#8, 0x1E#8, 0x29#8, 0x33#8, 0x55#8, 0x65#8])) ∧
  ∀ (s : State) (w : Word), s.inFrame = true → s.executed < s.cfg.ipf → s.frameOver = false → s.halted = false →
    wordAt s s.pc.toNat = .ok w → decode w = .error (.invalidOpcode w) →
    step s = .next { s with halted := true, faultKind := some .invalidOpcode, executed := s.executed + 1 }

/-- R240, R250: between FRAMEs the step of a core that is not halted starts one: some key vector is taken, the old
one becomes the previous one, both timers count down with floor 0, and the frame-local counters are fresh. The order
of the frame's parts is the spec's own choice (D17); the key vector is a free value (log entry 3). -/
def Obligations.FrameStartSnapshotsKeysAndCountsDown : Prop :=
  ∀ s : State, s.inFrame = false → s.halted = false →
    ∃ t, step s = .next t ∧ t.prevKey = s.key ∧ t.key = Config.freeKeys s.freeCount ∧
      t.dt.toNat = s.dt.toNat - 1 ∧ t.st.toNat = s.st.toNat - 1 ∧
      t.inFrame = true ∧ t.executed = 0 ∧ t.frameOver = false ∧
      changesOnly [.prevKey, .key, .dt, .st, .inFrame, .executed, .frameOver, .freeCount] s t

/-- R250, R251: a frame whose budget is spent, that is over early or whose core is halted returns. That a frame is
several steps of the model is the model's choice (log entry 2). -/
def Obligations.FrameReturnsWhenLoopEnds : Prop :=
  ∀ s : State, s.inFrame = true → (s.cfg.ipf ≤ s.executed ∨ s.frameOver = true ∨ s.halted = true) →
    ∃ t, step s = .next t ∧ t.inFrame = false ∧ changesOnly [.inFrame, .executed, .frameOver] s t

/-- R234: while halted a FRAME changes no state, as a whole operation and as the machine's step. That a FRAME then
does nothing is the spec's own choice (D10). -/
def Obligations.HaltedFrameChangesNothing : Prop :=
  ∀ s : State, s.halted = true → (∀ keys, frame keys s = s) ∧ (s.inFrame = false → step s = .next s)

/-- R250, R254: the steps of the machine carry out FRAME: between FRAMEs, running it for some number of steps, at
most IPF + 2, gives the state that FRAME with the key vector taken gives. That a frame is several steps is the
model's choice (log entry 2). -/
def Obligations.StepsCarryOutFrame : Prop :=
  ∀ s : State, s.inFrame = false → s.halted = false →
    ∃ k, k ≤ s.cfg.ipf + 2 ∧
      core.run k s = .next (frame (Config.freeKeys s.freeCount) { s with freeCount := s.freeCount + 1 })

/-- R251, R250: a FRAME runs at most IPF instruction steps, and its loop has come to its end then. -/
def Obligations.FrameSpendsAtMostItsBudget : Prop :=
  ∀ (s : State) (keys : Keys), s.halted = false →
    (frameLoop s.cfg.ipf (beginFrame keys s)).executed ≤ s.cfg.ipf ∧
    frameGoesOn (frameLoop s.cfg.ipf (beginFrame keys s)) = false

/-- R240, R241: `n` countdowns take a timer from v to v - n, floored at 0, so it is 0 after v of them. -/
def Obligations.TimerReachesZeroAfterItsValue : Prop :=
  ∀ (v : Byte) (n : Nat), (tick^[n] v).toNat = v.toNat - n

/-- The invariant of `State.Inv` (R25, R29, R32, R45, R23, R230, canonical memory) is kept by every step, from every
state that has it. That executed and frameOver are held at 0 and false between FRAMEs is the model's choice (log
entry 2; R45 only discards them), the canonical form of memory is the model's (log entry 12), and that
InvalidRegister is never recorded is the spec's own choice (D27; log entry 22). -/
def Obligations.StepKeepsTheInvariant : Prop :=
  ∀ s t : State, s.Inv → step s = .next t → t.Inv

/-- The reset state has the invariant. The values of registers at reset are the spec's own choice (D6; log entry 6). -/
def Obligations.ResetHasTheInvariant : Prop := State.reset.Inv

/-- R48, R270, R271: LOAD builds R48's state with font, image and zeroes in memory when the image fits, and no state
when it does not. Reset values and the refused LOAD are the spec's own choices (D6, D21; log entries 6 and 8). -/
def Obligations.LoadBuildsTheFreshState : Prop :=
  ∀ (c : Config) (image : List Byte), c.wf →
    (image.length ≤ 4096 - c.entry.toNat →
      ∃ s, load c image = some s ∧ s.Inv ∧
        (∀ (a : Nat) (h : a < 80), s.memByte a = c.font[a]) ∧
        (∀ (k : Nat) (h : k < image.length), s.memByte (c.entry.toNat + k) = image[k]) ∧
        (∀ a, 80 ≤ a → a < c.entry.toNat ∨ c.entry.toNat + image.length ≤ a → s.memByte a = 0) ∧
        s.pc.toNat = c.entry.toNat ∧ (∀ x : Reg, s.readV x = c.resetV[x.toNat]'x.isLt) ∧
        s.i.toNat = c.resetI.toNat ∧ s.sp = 0 ∧ s.dt = c.resetDt ∧ s.st = c.resetSt ∧
        (∀ x y, s.display.cell x y = false) ∧ s.key = 0 ∧ s.prevKey = 0 ∧
        s.halted = false ∧ s.faultKind = none ∧ s.cfg = c) ∧
    (4096 - c.entry.toNat < image.length → load c image = none)

/-- R49: no step changes the configuration. That the configuration rides in the state is the model's choice (log
entry 4). -/
def Obligations.StepKeepsTheConfiguration : Prop :=
  ∀ s t : State, step s = .next t → t.cfg = s.cfg

/-- R105, R232, R233: every step of every state, and every instruction in every state, ends in a next state: what the
hardware executes is never refused, and a fault is the halted state the spec describes. That a fault or a refusal is
a next state and nothing answers otherwise is the model's reading (log entry 7), and so is that exec runs in any
state (log entry 21). -/
def Obligations.EveryStepHasANextState : Prop :=
  (∀ s, ∃ t, step s = .next t) ∧ ∀ i s, ∃ t, exec i s = .next t

/-- R23: no step records InvalidRegister. That no rule raises it is the spec's own choice (D27). -/
def Obligations.InvalidRegisterIsNeverRaised : Prop :=
  ∀ s t : State, step s = .next t → s.faultKind ≠ some .invalidRegister → t.faultKind ≠ some .invalidRegister

/-- R47, R234: once halted, a core stays so with the same kind and everything a host or a program could see. That a
halted core does nothing more is the spec's own choice (D10; log entry 7), and that one halted inside a FRAME may
still return from it is the model's (log entry 2). -/
def Obligations.HaltedIsFinal : Prop :=
  ∀ s t : State, s.halted = true → step s = .next t →
    t.halted = true ∧ changesOnly [.inFrame, .executed, .frameOver] s t

/-- R15, R66, R68, R232: an instruction that halts a running core leaves the state before it but for `halted` and
`fault_kind`; the pc is its own address. The state after a fault is the spec's own choice (D9; log entry 7). -/
def Obligations.FaultsArePrecise : Prop :=
  ∀ (i : Instr) (s t : State), s.halted = false → exec i s = .next t → t.halted = true →
    ∃ k, t = { s with halted := true, faultKind := some k }

/-- R231: which instruction faults when, 0NNN apart: it enters the named fault, or completes with the core running.
The state after a fault is the spec's own choice (D9; log entry 7). -/
def Obligations.WhichInstructionsFault : Prop :=
  ∀ (i : Instr) (s : State), (∀ nnn, i ≠ .sys nnn) →
    (∀ k, ownFault s i = some k → faultsWith i s k) ∧
    (ownFault s i = none →
      ∃ t, exec i s = .next t ∧ t.halted = s.halted ∧ t.faultKind = s.faultKind)

/-- R22, R26, R28, R31, R36, R37, R40, R41: what each instruction but 0NNN may change when it completes; when it
faults, only the halted bit and the fault kind change. The clause on faults rests on the spec's own choice D9 (log
entry 7), and that FX33 keeps I on its choice D23 (log entry 19). -/
def Obligations.InstructionsChangeOnlyWhatTheyWrite : Prop :=
  ∀ (i : Instr) (s t : State), (∀ nnn, i ≠ .sys nnn) → exec i s = .next t →
    (ownFault s i = none → changesOnly (writes i) s t) ∧
    (ownFault s i ≠ none → changesOnly [.halted, .faultKind] s t)

/-- R41, R277: no instruction, 0NNN included, writes a key vector, so every instruction of one frame sees the same
two. -/
def Obligations.NoInstructionWritesTheKeys : Prop :=
  ∀ (i : Instr) (s t : State), exec i s = .next t → t.key = s.key ∧ t.prevKey = s.prevKey

/-- R252, R253: but through 0NNN, only a draw and a key-wait without a released key end the frame. That a satisfied
wait does not end it is the spec's own choice (D16). -/
def Obligations.OnlyDrawAndWaitEndTheFrame : Prop :=
  ∀ (i : Instr) (s t : State), (∀ nnn, i ≠ .sys nnn) → exec i s = .next t →
    s.frameOver = false → t.frameOver = true →
    (∃ x y n, i = .drwVxVyN x y n) ∨ ((∃ x, i = .ldVxK x) ∧ releasedKeys s.prevKey s.key = [])

/-! ## Control flow -/

/-- R131: RET pops the top entry into the pc, and with an empty stack faults with the stack and the pc as before. The
state after a fault is the spec's own choice (D9). -/
def Obligations.ReturnPopsTheStack : Prop :=
  ∀ s : State,
    (∀ w rest, s.stack = w :: rest →
      ∃ t, exec .ret s = .next t ∧ t.pc = w ∧ t.stack = rest ∧ t.sp = s.sp - 1 ∧ changesOnly [.pc, .stack] s t) ∧
    (s.sp = 0 → faultsWith .ret s .emptyStackUnderflow)

/-- R132: JP sets the pc to NNN, R139: JP V0 to NNN + V0 with no mask. That BNNN is not masked is the spec's own
choice (D8). -/
def Obligations.JumpsSetThePc : Prop :=
  ∀ (nnn : Addr) (s : State),
    (∃ t, exec (.jp nnn) s = .next t ∧ t.pc.toNat = nnn.toNat ∧ changesOnly [.pc] s t) ∧
    (∃ t, exec (.jpV0Nnn nnn) s = .next t ∧ t.pc.toNat = nnn.toNat + (s.readV 0).toNat ∧
      t.pc.toNat ≤ 0x10FE ∧ changesOnly [.pc] s t)

/-- R133: CALL pushes its own address + 2 and jumps, and on a full stack faults with nothing changed. The state after
a fault is the spec's own choice (D9). -/
def Obligations.CallPushesTheReturnAddress : Prop :=
  ∀ (nnn : Addr) (s : State),
    (s.sp < s.cfg.stackDepth →
      ∃ t, exec (.call nnn) s = .next t ∧ t.pc.toNat = nnn.toNat ∧ t.sp = s.sp + 1 ∧
        t.stackEntry s.sp = s.pc + 2 ∧ (∀ k, k < s.sp → t.stackEntry k = s.stackEntry k) ∧
        changesOnly [.pc, .stack] s t) ∧
    (s.cfg.stackDepth ≤ s.sp → faultsWith (.call nnn) s .stackOverflow)

/-- R138: a completed CALL at address a, then, once every call in between has returned, RET: the pc is a + 2 and the
stack is what it was. -/
def Obligations.CallThenReturnComesBack : Prop :=
  ∀ (nnn : Addr) (s t u : State), s.sp < s.cfg.stackDepth → exec (.call nnn) s = .next t → u.stack = t.stack →
    ∃ w, exec .ret u = .next w ∧ w.pc = s.pc + 2 ∧ w.stack = s.stack ∧ w.sp = s.sp

/-- R134-R137: the four register skips advance the pc by 4 when their condition holds and by 2 when not, and change
nothing else. -/
def Obligations.SkipsTestTheirCondition : Prop :=
  ∀ (x y : Reg) (nn : Byte) (s : State),
    (∃ t, exec (.seVxNn x nn) s = .next t ∧ changesOnly [.pc] s t ∧
      (s.readV x = nn → t.pc = s.pc + 4) ∧ (s.readV x ≠ nn → t.pc = s.pc + 2)) ∧
    (∃ t, exec (.sneVxNn x nn) s = .next t ∧ changesOnly [.pc] s t ∧
      (s.readV x ≠ nn → t.pc = s.pc + 4) ∧ (s.readV x = nn → t.pc = s.pc + 2)) ∧
    (∃ t, exec (.seVxVy x y) s = .next t ∧ changesOnly [.pc] s t ∧
      (s.readV x = s.readV y → t.pc = s.pc + 4) ∧ (s.readV x ≠ s.readV y → t.pc = s.pc + 2)) ∧
    (∃ t, exec (.sneVxVy x y) s = .next t ∧ changesOnly [.pc] s t ∧
      (s.readV x ≠ s.readV y → t.pc = s.pc + 4) ∧ (s.readV x = s.readV y → t.pc = s.pc + 2))

/-- R130: with SYS_MODE = exec_at, a 0NNN whose stored word is an instruction other than 0NNN ends exactly as that
instruction would in its place: skips, pushes and rewinds see the 0NNN's own address, and a fault is the 0NNN's.
Where the stored instruction raises no fault, the 0NNN completes and changes only what that instruction writes. The
reading of 0NNN is the spec's own choice (D12; log entry 9). -/
def Obligations.SysRunsTheStoredInstruction : Prop :=
  ∀ (nnn : Addr) (i : Instr) (s : State), s.cfg.sysMode = .execAt → 1 ≤ s.cfg.sysDepthMax → nnn.toNat < 0xFFF →
    decode (wordOfBytes (s.memByte nnn.toNat) (s.memByte (nnn.toNat + 1))) = .ok i → (∀ m, i ≠ .sys m) →
    ∃ t, exec (.sys nnn) s = .next t ∧ exec i s = .next t ∧
      (ownFault s i = none → t.halted = s.halted ∧ t.faultKind = s.faultKind ∧ changesOnly (writes i) s t)

/-- R130 whole: with SYS_MODE = exec_at, a 0NNN follows the chain of stored 0NNN words, SYS_DEPTH_MAX words at most,
and ends as the first other instruction would in its own place, or in the fault the chain meets: an address out of
the space, an invalid word, or the cap. The reading of 0NNN is the spec's own choice (D12; log entry 9). -/
def Obligations.SysFollowsTheChain : Prop :=
  ∀ (nnn : Addr) (s : State), s.cfg.sysMode = .execAt →
    (∀ i, chainResult s.cfg.sysDepthMax s nnn = .ok i → ∃ t, exec (.sys nnn) s = .next t ∧ exec i s = .next t) ∧
    (∀ k, chainResult s.cfg.sysDepthMax s nnn = .error k → faultsWith (.sys nnn) s k)

/-- R130, R231, R233, R236: what 0NNN raises itself, in the spec's order: Refused under SYS_MODE = refuse; a stored
word outside the space; an invalid stored word; and SysDepthExceeded when the stored word is the same 0NNN again,
however deep the cap. The reading of 0NNN is the spec's own choice (D12; log entry 9). -/
def Obligations.SysFaults : Prop :=
  ∀ (nnn : Addr) (s : State),
    (s.cfg.sysMode = .refuse → faultsWith (.sys nnn) s .refused) ∧
    (s.cfg.sysMode = .execAt → 1 ≤ s.cfg.sysDepthMax → nnn = 0xFFF → faultsWith (.sys nnn) s .outOfBoundsAddress) ∧
    (s.cfg.sysMode = .execAt → 1 ≤ s.cfg.sysDepthMax →
      (∃ w, wordAt s nnn.toNat = .ok w ∧ decode w = .error (.invalidOpcode w)) →
      faultsWith (.sys nnn) s .invalidOpcode) ∧
    (s.cfg.sysMode = .execAt →
      (∃ w, wordAt s nnn.toNat = .ok w ∧ decode w = .ok (.sys nnn)) →
      faultsWith (.sys nnn) s .sysDepthExceeded)

/-! ## Registers -/

/-- R150: LD VX, NN. -/
def Obligations.LoadImmediate : Prop :=
  ∀ (x : Reg) (nn : Byte) (s : State),
    ∃ t, exec (.ldVxNn x nn) s = .next t ∧ t.readV x = nn ∧ t.pc = s.pc + 2 ∧ keepsRegsBut [x] s t ∧
      changesOnly [.pc, .v] s t

/-- R151: ADD VX, NN wraps modulo 256 and writes no flag. -/
def Obligations.AddImmediateWrapsWithoutFlag : Prop :=
  ∀ (x : Reg) (nn : Byte) (s : State),
    ∃ t, exec (.addVxNn x nn) s = .next t ∧ (t.readV x).toNat = ((s.readV x).toNat + nn.toNat) % 256 ∧
      t.pc = s.pc + 2 ∧ keepsRegsBut [x] s t ∧ changesOnly [.pc, .v] s t

/-- R152: RND gives the free byte of this execution under the mask, bit by bit, and uses it up. That the byte is free
is the spec's own choice (D18; log entry 3), and the operation and its mask are from general knowledge (R152, GK5;
log entry 5). -/
def Obligations.RandomByteIsMasked : Prop :=
  ∀ (x : Reg) (nn : Byte) (s : State),
    ∃ t, exec (.rndVxNn x nn) s = .next t ∧
      (∀ k : Nat, (t.readV x).getLsbD k = (nn.getLsbD k && (Config.freeRnd s.freeCount).getLsbD k)) ∧
      (nn = 0 → t.readV x = 0) ∧ t.freeCount = s.freeCount + 1 ∧
      t.pc = s.pc + 2 ∧ keepsRegsBut [x] s t ∧ changesOnly [.pc, .v, .freeCount] s t

/-- R161: LD VX, VY copies and writes no flag. -/
def Obligations.CopyRegister : Prop :=
  ∀ (x y : Reg) (s : State),
    ∃ t, exec (.ldVxVy x y) s = .next t ∧ t.readV x = s.readV y ∧ t.pc = s.pc + 2 ∧ keepsRegsBut [x] s t ∧
      changesOnly [.pc, .v] s t

/-- R160, R162, R163, R164: the logic operations bit by bit; VF is 0 afterwards, also when X = F. -/
def Obligations.LogicClearsTheFlag : Prop :=
  ∀ (x y : Reg) (s : State),
    (∃ t, exec (.orVxVy x y) s = .next t ∧ t.readV 0xF = 0 ∧ t.pc = s.pc + 2 ∧
      (x ≠ 0xF → ∀ k : Nat, (t.readV x).getLsbD k = ((s.readV x).getLsbD k || (s.readV y).getLsbD k)) ∧
      keepsRegsBut [x, 0xF] s t ∧ changesOnly [.pc, .v] s t) ∧
    (∃ t, exec (.andVxVy x y) s = .next t ∧ t.readV 0xF = 0 ∧ t.pc = s.pc + 2 ∧
      (x ≠ 0xF → ∀ k : Nat, (t.readV x).getLsbD k = ((s.readV x).getLsbD k && (s.readV y).getLsbD k)) ∧
      keepsRegsBut [x, 0xF] s t ∧ changesOnly [.pc, .v] s t) ∧
    (∃ t, exec (.xorVxVy x y) s = .next t ∧ t.readV 0xF = 0 ∧ t.pc = s.pc + 2 ∧
      (x ≠ 0xF → ∀ k : Nat, (t.readV x).getLsbD k = ((s.readV x).getLsbD k ^^ (s.readV y).getLsbD k)) ∧
      keepsRegsBut [x, 0xF] s t ∧ changesOnly [.pc, .v] s t)

/-- R160, R165: ADD VX, VY wraps; VF is 1 iff the exact sum is over 255, else 0, and wins when X = F. The case X = F
is the spec's own choice (D13). -/
def Obligations.AddSetsCarry : Prop :=
  ∀ (x y : Reg) (s : State),
    ∃ t, exec (.addVxVy x y) s = .next t ∧ t.pc = s.pc + 2 ∧
      (x ≠ 0xF → (t.readV x).toNat = ((s.readV x).toNat + (s.readV y).toNat) % 256) ∧
      t.readV 0xF = (if 255 < (s.readV x).toNat + (s.readV y).toNat then 1 else 0) ∧
      keepsRegsBut [x, 0xF] s t ∧ changesOnly [.pc, .v] s t

/-- R160, R166, R168: SUB takes VX - VY, SUBN VY - VX, modulo 256; VF is 1 iff there is no borrow, and wins when X =
F. The case X = F is the spec's own choice (D13). -/
def Obligations.SubtractionsSetNotBorrow : Prop :=
  ∀ (x y : Reg) (s : State),
    (∃ t, exec (.subVxVy x y) s = .next t ∧ t.pc = s.pc + 2 ∧
      (x ≠ 0xF → ((t.readV x).toNat : Int) = ((s.readV x).toNat - (s.readV y).toNat : Int) % 256) ∧
      t.readV 0xF = (if (s.readV y).toNat ≤ (s.readV x).toNat then 1 else 0) ∧
      keepsRegsBut [x, 0xF] s t ∧ changesOnly [.pc, .v] s t) ∧
    (∃ t, exec (.subnVxVy x y) s = .next t ∧ t.pc = s.pc + 2 ∧
      (x ≠ 0xF → ((t.readV x).toNat : Int) = ((s.readV y).toNat - (s.readV x).toNat : Int) % 256) ∧
      t.readV 0xF = (if (s.readV x).toNat ≤ (s.readV y).toNat then 1 else 0) ∧
      keepsRegsBut [x, 0xF] s t ∧ changesOnly [.pc, .v] s t)

/-- R160, R167, R169: the shifts take VY, whatever VX held; VF is the bit shifted out, and wins when X = F. The case
X = F is the spec's own choice (D13). -/
def Obligations.ShiftsTakeVy : Prop :=
  ∀ (x y : Reg) (s : State),
    (∃ t, exec (.shrVxVy x y) s = .next t ∧ t.pc = s.pc + 2 ∧
      (x ≠ 0xF → t.readV x = s.readV y >>> 1) ∧ (t.readV 0xF).toNat = (s.readV y).toNat % 2 ∧
      keepsRegsBut [x, 0xF] s t ∧ changesOnly [.pc, .v] s t) ∧
    (∃ t, exec (.shlVxVy x y) s = .next t ∧ t.pc = s.pc + 2 ∧
      (x ≠ 0xF → t.readV x = s.readV y <<< 1) ∧ (t.readV 0xF).toNat = (s.readV y).toNat / 128 ∧
      keepsRegsBut [x, 0xF] s t ∧ changesOnly [.pc, .v] s t)

/-! ## Memory and index -/

/-- R180, R181, R182: the three writes to I: NNN; I + VX masked to 12 bits; 5 times VX's low nibble. VF and memory
are untouched. -/
def Obligations.IndexWrites : Prop :=
  ∀ (nnn : Addr) (x : Reg) (s : State),
    (∃ t, exec (.ldINnn nnn) s = .next t ∧ t.i.toNat = nnn.toNat ∧ t.pc = s.pc + 2 ∧ changesOnly [.pc, .i] s t) ∧
    (∃ t, exec (.addIVx x) s = .next t ∧ t.i.toNat = (s.i.toNat + (s.readV x).toNat) % 4096 ∧
      t.pc = s.pc + 2 ∧ changesOnly [.pc, .i] s t) ∧
    (∃ t, exec (.ldFVx x) s = .next t ∧ t.i.toNat = 5 * ((s.readV x).toNat % 16) ∧ t.i.toNat ≤ 0x04B ∧
      t.pc = s.pc + 2 ∧ changesOnly [.pc, .i] s t)

/-- R183: hundreds, tens and ones of VX at I, I+1, I+2, every other byte and I unchanged; past the end of memory
OutOfBoundsAddress and no byte written. That I is kept is the spec's own choice (D23). -/
def Obligations.StoreDecimalDigits : Prop :=
  ∀ (x : Reg) (s : State),
    (s.i.toNat + 2 ≤ 0xFFF →
      ∃ t, exec (.ldBVx x) s = .next t ∧
        (t.memByte s.i.toNat).toNat = (s.readV x).toNat / 100 ∧
        (t.memByte (s.i.toNat + 1)).toNat = (s.readV x).toNat / 10 % 10 ∧
        (t.memByte (s.i.toNat + 2)).toNat = (s.readV x).toNat % 10 ∧
        (∀ a, a < s.i.toNat ∨ s.i.toNat + 2 < a → t.memByte a = s.memByte a) ∧
        t.pc = s.pc + 2 ∧ changesOnly [.pc, .mem] s t) ∧
    (0xFFF < s.i.toNat + 2 → faultsWith (.ldBVx x) s .outOfBoundsAddress)

/-- R184: V0..VX at I..I+X, every other byte unchanged, and I advanced by X + 1 (masked) when INDEX_ADVANCE; past the
end of memory OutOfBoundsAddress and nothing changed. That the advanced I is masked is the spec's own choice (D23). -/
def Obligations.StoreRegisterBlock : Prop :=
  ∀ (x : Reg) (s : State),
    (s.i.toNat + x.toNat ≤ 0xFFF →
      ∃ t, exec (.ldMemVx x) s = .next t ∧
        (∀ k : Reg, k.toNat ≤ x.toNat → t.memByte (s.i.toNat + k.toNat) = s.readV k) ∧
        (∀ a, a < s.i.toNat ∨ s.i.toNat + x.toNat < a → t.memByte a = s.memByte a) ∧
        (s.cfg.indexAdvance = true → t.i.toNat = (s.i.toNat + x.toNat + 1) % 4096) ∧
        (s.cfg.indexAdvance = false → t.i = s.i) ∧
        t.pc = s.pc + 2 ∧ changesOnly [.pc, .mem, .i] s t) ∧
    (0xFFF < s.i.toNat + x.toNat → faultsWith (.ldMemVx x) s .outOfBoundsAddress)

/-- R185: I..I+X into V0..VX, the registers above X unchanged, and I advanced by X + 1 (masked) when INDEX_ADVANCE;
past the end of memory OutOfBoundsAddress and nothing changed. That the advanced I is masked is the spec's own choice
(D23). -/
def Obligations.LoadRegisterBlock : Prop :=
  ∀ (x : Reg) (s : State),
    (s.i.toNat + x.toNat ≤ 0xFFF →
      ∃ t, exec (.ldVxMem x) s = .next t ∧
        (∀ k : Reg, k.toNat ≤ x.toNat → t.readV k = s.memByte (s.i.toNat + k.toNat)) ∧
        (∀ k : Reg, x.toNat < k.toNat → t.readV k = s.readV k) ∧
        (s.cfg.indexAdvance = true → t.i.toNat = (s.i.toNat + x.toNat + 1) % 4096) ∧
        (s.cfg.indexAdvance = false → t.i = s.i) ∧
        t.pc = s.pc + 2 ∧ changesOnly [.pc, .v, .i] s t) ∧
    (0xFFF < s.i.toNat + x.toNat → faultsWith (.ldVxMem x) s .outOfBoundsAddress)

/-- E1 as 90_conflicts.md C7 reads it: FX55 from I, then, in any state whose memory is as that left it and whose I is
the old one, FX65 gives V0..VX back. -/
def Obligations.StoreThenLoadGivesTheRegistersBack : Prop :=
  ∀ (x : Reg) (s t u : State), s.i.toNat + x.toNat ≤ 0xFFF → exec (.ldMemVx x) s = .next t →
    u.mem = t.mem → u.cfg = t.cfg → u.i = s.i →
    ∃ w, exec (.ldVxMem x) u = .next w ∧ ∀ k : Reg, k.toNat ≤ x.toNat → w.readV k = s.readV k

/-- R74, R279: a word that FX55 stores from V0 and V1 is what the very next fetch finds there. The spec's own choice
D20. -/
def Obligations.StoredWordIsFetchedNext : Prop :=
  ∀ (x : Reg) (s t : State), 1 ≤ x.toNat → s.i.toNat + x.toNat ≤ 0xFFF → s.pc + 2 = s.i →
    exec (.ldMemVx x) s = .next t →
    wordAt t t.pc.toNat = .ok (wordOfBytes (s.readV 0) (s.readV 1))

/-! ## Display, input, timers -/

/-- R200: CLS clears every cell and does nothing else; it does not end the frame. -/
def Obligations.ClearScreen : Prop :=
  ∀ s : State, ∃ t, exec .cls s = .next t ∧ (∀ x y, t.display.cell x y = false) ∧ t.pc = s.pc + 2 ∧
    changesOnly [.pc, .display] s t

/-- R201, R202: a draw inverts exactly the unclipped cells under set sprite bits, VF tells whether one of them was
lit, the start position wraps, the frame is over; a sprite past the end of memory faults with nothing changed. The
order of reads and the bit order in a row are the spec's own choices (D14; log entry 5). -/
def Obligations.DrawInvertsTheCoveredCells : Prop :=
  ∀ (x y : Reg) (n : Nibble) (s : State),
    (n.toNat = 0 ∨ s.i.toNat + n.toNat - 1 ≤ 0xFFF →
      ∃ t, exec (.drwVxVyN x y n) s = .next t ∧
        (∀ cx cy, cx < 64 → cy < 32 → t.display.cell cx cy =
          (s.display.cell cx cy ^^
            spriteCovers s ((s.readV x).toNat % 64) ((s.readV y).toNat % 32) n.toNat cx cy)) ∧
        (t.readV 0xF = 1 ↔ ∃ cx cy, cx < 64 ∧ cy < 32 ∧ s.display.cell cx cy = true ∧
          spriteCovers s ((s.readV x).toNat % 64) ((s.readV y).toNat % 32) n.toNat cx cy = true) ∧
        (t.readV 0xF = 0 ∨ t.readV 0xF = 1) ∧ t.frameOver = true ∧ t.pc = s.pc + 2 ∧
        keepsRegsBut [0xF] s t ∧ changesOnly [.pc, .v, .display, .frameOver] s t) ∧
    (n.toNat ≠ 0 → 0xFFF < s.i.toNat + n.toNat - 1 → faultsWith (.drwVxVyN x y n) s .outOfBoundsAddress)

/-- R201's corner case: the same sprite drawn twice at the same place restores the display, whatever it held, and the
second draw sets VF = 1 iff the sprite has a set bit over a cell that was unlit at first. The clause on VF is the
model's reading of R201 (log entry 10). -/
def Obligations.DrawingTwiceRestoresTheDisplay : Prop :=
  ∀ (x y : Reg) (n : Nibble) (s t : State), x ≠ 0xF → y ≠ 0xF →
    (n.toNat = 0 ∨ s.i.toNat + n.toNat - 1 ≤ 0xFFF) → exec (.drwVxVyN x y n) s = .next t →
    ∃ u, exec (.drwVxVyN x y n) t = .next u ∧ u.display = s.display ∧
      (u.readV 0xF = 1 ↔ ∃ cx cy, cx < 64 ∧ cy < 32 ∧ s.display.cell cx cy = false ∧
        spriteCovers s ((s.readV x).toNat % 64) ((s.readV y).toNat % 32) n.toNat cx cy = true)

/-- R210, R211: the key skips test the bit of the current key vector that VX's low nibble names. -/
def Obligations.KeySkipsTestTheKey : Prop :=
  ∀ (x : Reg) (s : State),
    (∃ t, exec (.skpVx x) s = .next t ∧ changesOnly [.pc] s t ∧
      t.pc = if s.key.getLsbD ((s.readV x).toNat % 16) then s.pc + 4 else s.pc + 2) ∧
    (∃ t, exec (.sknpVx x) s = .next t ∧ changesOnly [.pc] s t ∧
      t.pc = if s.key.getLsbD ((s.readV x).toNat % 16) then s.pc + 2 else s.pc + 4)

/-- R212: FX0A with a key released in this frame gives the number of one such key and the frame goes on; with none it
keeps the pc on itself and ends the frame. Which of several it gives is free. The free choice and the frame's going
on are the spec's own choices (D15, D16; log entry 3). -/
def Obligations.KeyWaitNeedsAReleasedKey : Prop :=
  ∀ (x : Reg) (s : State),
    ((∃ k, k < 16 ∧ s.prevKey.getLsbD k = true ∧ s.key.getLsbD k = false) →
      ∃ t, exec (.ldVxK x) s = .next t ∧ t.pc = s.pc + 2 ∧ (t.readV x).toNat < 16 ∧
        s.prevKey.getLsbD (t.readV x).toNat = true ∧ s.key.getLsbD (t.readV x).toNat = false ∧
        keepsRegsBut [x] s t ∧ changesOnly [.pc, .v, .freeCount] s t) ∧
    ((∀ k, k < 16 → s.prevKey.getLsbD k = true → s.key.getLsbD k = true) →
      ∃ t, exec (.ldVxK x) s = .next t ∧ t.frameOver = true ∧ changesOnly [.frameOver] s t)

/-- R220, R221, R222: VX from DT, DT from VX, ST from VX, and the sound is active iff ST is not 0 (R38). -/
def Obligations.TimerMoves : Prop :=
  ∀ (x : Reg) (s : State),
    (∃ t, exec (.ldVxDt x) s = .next t ∧ t.readV x = s.dt ∧ t.pc = s.pc + 2 ∧ keepsRegsBut [x] s t ∧
      changesOnly [.pc, .v] s t) ∧
    (∃ t, exec (.ldDtVx x) s = .next t ∧ t.dt = s.readV x ∧ t.pc = s.pc + 2 ∧ changesOnly [.pc, .dt] s t) ∧
    (∃ t, exec (.ldStVx x) s = .next t ∧ t.st = s.readV x ∧ (t.soundActive = true ↔ s.readV x ≠ 0) ∧
      t.pc = s.pc + 2 ∧ changesOnly [.pc, .st] s t)
end

