-- ==== Sys2Proof/Laws/Fields.lean ====
section
/-! SUPPORT. The fields of a word and the words of the forms as numbers (30_encoding.md R93, R94): so the fields of
each form are its operands, and a word is rebuilt from its fields. -/

namespace Sys2Proof

variable (top : Nibble) (x y : Reg) (n : Nibble) (nn : Byte) (nnn : Addr) (w : Word)

theorem append_toNat {k m : Nat} (a : BitVec k) (b : BitVec m) : (a ++ b).toNat = a.toNat * 2 ^ m + b.toNat := by
  rw [BitVec.toNat_append, ← Nat.shiftLeft_add_eq_or_of_lt b.isLt, Nat.shiftLeft_eq]

theorem formXYN_toNat : (formXYN top x y n).toNat = top.toNat * 4096 + x.toNat * 256 + y.toNat * 16 + n.toNat := by
  simp only [formXYN, append_toNat]; omega

theorem formXNN_toNat : (formXNN top x nn).toNat = top.toNat * 4096 + x.toNat * 256 + nn.toNat := by
  simp only [formXNN, append_toNat]; omega

theorem formNNN_toNat : (formNNN top nnn).toNat = top.toNat * 4096 + nnn.toNat := by
  simp only [formNNN, append_toNat]; omega

theorem fieldTop_toNat : (fieldTop w).toNat = w.toNat / 4096 % 16 := by
  simp [fieldTop, BitVec.extractLsb'_toNat, Nat.shiftRight_eq_div_pow]

theorem fieldX_toNat : (fieldX w).toNat = w.toNat / 256 % 16 := by
  simp [fieldX, BitVec.extractLsb'_toNat, Nat.shiftRight_eq_div_pow]

theorem fieldY_toNat : (fieldY w).toNat = w.toNat / 16 % 16 := by
  simp [fieldY, BitVec.extractLsb'_toNat, Nat.shiftRight_eq_div_pow]

theorem fieldN_toNat : (fieldN w).toNat = w.toNat % 16 := by
  simp [fieldN, BitVec.extractLsb'_toNat, Nat.shiftRight_eq_div_pow]

theorem fieldNN_toNat : (fieldNN w).toNat = w.toNat % 256 := by
  simp [fieldNN, BitVec.extractLsb'_toNat, Nat.shiftRight_eq_div_pow]

theorem fieldNNN_toNat : (fieldNNN w).toNat = w.toNat % 4096 := by
  simp [fieldNNN, BitVec.extractLsb'_toNat, Nat.shiftRight_eq_div_pow]

@[simp] theorem fieldTop_formXYN : fieldTop (formXYN top x y n) = top := by
  apply BitVec.eq_of_toNat_eq; rw [fieldTop_toNat, formXYN_toNat]; omega

@[simp] theorem fieldX_formXYN : fieldX (formXYN top x y n) = x := by
  apply BitVec.eq_of_toNat_eq; rw [fieldX_toNat, formXYN_toNat]; omega

@[simp] theorem fieldY_formXYN : fieldY (formXYN top x y n) = y := by
  apply BitVec.eq_of_toNat_eq; rw [fieldY_toNat, formXYN_toNat]; omega

@[simp] theorem fieldN_formXYN : fieldN (formXYN top x y n) = n := by
  apply BitVec.eq_of_toNat_eq; rw [fieldN_toNat, formXYN_toNat]; omega

@[simp] theorem fieldTop_formXNN : fieldTop (formXNN top x nn) = top := by
  apply BitVec.eq_of_toNat_eq; rw [fieldTop_toNat, formXNN_toNat]; omega

@[simp] theorem fieldX_formXNN : fieldX (formXNN top x nn) = x := by
  apply BitVec.eq_of_toNat_eq; rw [fieldX_toNat, formXNN_toNat]; omega

@[simp] theorem fieldNN_formXNN : fieldNN (formXNN top x nn) = nn := by
  apply BitVec.eq_of_toNat_eq; rw [fieldNN_toNat, formXNN_toNat]; omega

@[simp] theorem fieldTop_formNNN : fieldTop (formNNN top nnn) = top := by
  apply BitVec.eq_of_toNat_eq; rw [fieldTop_toNat, formNNN_toNat]; omega

@[simp] theorem fieldNNN_formNNN : fieldNNN (formNNN top nnn) = nnn := by
  apply BitVec.eq_of_toNat_eq; rw [fieldNNN_toNat, formNNN_toNat]; omega

theorem formXYN_fields : formXYN (fieldTop w) (fieldX w) (fieldY w) (fieldN w) = w := by
  apply BitVec.eq_of_toNat_eq
  rw [formXYN_toNat, fieldTop_toNat, fieldX_toNat, fieldY_toNat, fieldN_toNat]
  have := w.isLt
  omega

theorem formXNN_fields : formXNN (fieldTop w) (fieldX w) (fieldNN w) = w := by
  apply BitVec.eq_of_toNat_eq
  rw [formXNN_toNat, fieldTop_toNat, fieldX_toNat, fieldNN_toNat]
  have := w.isLt
  omega

theorem formNNN_fields : formNNN (fieldTop w) (fieldNNN w) = w := by
  apply BitVec.eq_of_toNat_eq
  rw [formNNN_toNat, fieldTop_toNat, fieldNNN_toNat]
  have := w.isLt
  omega

@[simp] theorem wordOfBytes_split : wordOfBytes (w.extractLsb' 8 8) (w.extractLsb' 0 8) = w := by
  apply BitVec.eq_of_toNat_eq
  simp only [wordOfBytes, append_toNat, BitVec.extractLsb'_toNat, Nat.shiftRight_eq_div_pow]
  have := w.isLt
  omega

end Sys2Proof
end

