-- ==== Sys2Proof/Laws/State.lean ====
section
/-! SUPPORT. What each update of the state leaves in each field, so that no later proof unfolds an update. -/

namespace Sys2Proof.Machine

variable (s : State)

@[simp] theorem State.writeV_v (x : Reg) (b : Byte) : (s.writeV x b).v = s.v.set x.toNat b x.isLt := rfl
@[simp] theorem State.writeV_i (x : Reg) (b : Byte) : (s.writeV x b).i = s.i := rfl
@[simp] theorem State.writeV_pc (x : Reg) (b : Byte) : (s.writeV x b).pc = s.pc := rfl
@[simp] theorem State.writeV_stack (x : Reg) (b : Byte) : (s.writeV x b).stack = s.stack := rfl
@[simp] theorem State.writeV_dt (x : Reg) (b : Byte) : (s.writeV x b).dt = s.dt := rfl
@[simp] theorem State.writeV_st (x : Reg) (b : Byte) : (s.writeV x b).st = s.st := rfl
@[simp] theorem State.writeV_mem (x : Reg) (b : Byte) : (s.writeV x b).mem = s.mem := rfl
@[simp] theorem State.writeV_display (x : Reg) (b : Byte) : (s.writeV x b).display = s.display := rfl
@[simp] theorem State.writeV_key (x : Reg) (b : Byte) : (s.writeV x b).key = s.key := rfl
@[simp] theorem State.writeV_prevKey (x : Reg) (b : Byte) : (s.writeV x b).prevKey = s.prevKey := rfl
@[simp] theorem State.writeV_halted (x : Reg) (b : Byte) : (s.writeV x b).halted = s.halted := rfl
@[simp] theorem State.writeV_faultKind (x : Reg) (b : Byte) : (s.writeV x b).faultKind = s.faultKind := rfl
@[simp] theorem State.writeV_inFrame (x : Reg) (b : Byte) : (s.writeV x b).inFrame = s.inFrame := rfl
@[simp] theorem State.writeV_executed (x : Reg) (b : Byte) : (s.writeV x b).executed = s.executed := rfl
@[simp] theorem State.writeV_frameOver (x : Reg) (b : Byte) : (s.writeV x b).frameOver = s.frameOver := rfl
@[simp] theorem State.writeV_freeCount (x : Reg) (b : Byte) : (s.writeV x b).freeCount = s.freeCount := rfl
@[simp] theorem State.writeV_cfg (x : Reg) (b : Byte) : (s.writeV x b).cfg = s.cfg := rfl

@[simp] theorem State.setV_v (w : Vector Byte 16) : (s.setV w).v = w := rfl
@[simp] theorem State.setV_i (w : Vector Byte 16) : (s.setV w).i = s.i := rfl
@[simp] theorem State.setV_pc (w : Vector Byte 16) : (s.setV w).pc = s.pc := rfl
@[simp] theorem State.setV_stack (w : Vector Byte 16) : (s.setV w).stack = s.stack := rfl
@[simp] theorem State.setV_dt (w : Vector Byte 16) : (s.setV w).dt = s.dt := rfl
@[simp] theorem State.setV_st (w : Vector Byte 16) : (s.setV w).st = s.st := rfl
@[simp] theorem State.setV_mem (w : Vector Byte 16) : (s.setV w).mem = s.mem := rfl
@[simp] theorem State.setV_display (w : Vector Byte 16) : (s.setV w).display = s.display := rfl
@[simp] theorem State.setV_key (w : Vector Byte 16) : (s.setV w).key = s.key := rfl
@[simp] theorem State.setV_prevKey (w : Vector Byte 16) : (s.setV w).prevKey = s.prevKey := rfl
@[simp] theorem State.setV_halted (w : Vector Byte 16) : (s.setV w).halted = s.halted := rfl
@[simp] theorem State.setV_faultKind (w : Vector Byte 16) : (s.setV w).faultKind = s.faultKind := rfl
@[simp] theorem State.setV_inFrame (w : Vector Byte 16) : (s.setV w).inFrame = s.inFrame := rfl
@[simp] theorem State.setV_executed (w : Vector Byte 16) : (s.setV w).executed = s.executed := rfl
@[simp] theorem State.setV_frameOver (w : Vector Byte 16) : (s.setV w).frameOver = s.frameOver := rfl
@[simp] theorem State.setV_freeCount (w : Vector Byte 16) : (s.setV w).freeCount = s.freeCount := rfl
@[simp] theorem State.setV_cfg (w : Vector Byte 16) : (s.setV w).cfg = s.cfg := rfl

@[simp] theorem State.writeI_v (n : Nat) : (s.writeI n).v = s.v := rfl
@[simp] theorem State.writeI_i (n : Nat) : (s.writeI n).i = BitVec.ofNat 16 (n % 4096) := rfl
@[simp] theorem State.writeI_pc (n : Nat) : (s.writeI n).pc = s.pc := rfl
@[simp] theorem State.writeI_stack (n : Nat) : (s.writeI n).stack = s.stack := rfl
@[simp] theorem State.writeI_dt (n : Nat) : (s.writeI n).dt = s.dt := rfl
@[simp] theorem State.writeI_st (n : Nat) : (s.writeI n).st = s.st := rfl
@[simp] theorem State.writeI_mem (n : Nat) : (s.writeI n).mem = s.mem := rfl
@[simp] theorem State.writeI_display (n : Nat) : (s.writeI n).display = s.display := rfl
@[simp] theorem State.writeI_key (n : Nat) : (s.writeI n).key = s.key := rfl
@[simp] theorem State.writeI_prevKey (n : Nat) : (s.writeI n).prevKey = s.prevKey := rfl
@[simp] theorem State.writeI_halted (n : Nat) : (s.writeI n).halted = s.halted := rfl
@[simp] theorem State.writeI_faultKind (n : Nat) : (s.writeI n).faultKind = s.faultKind := rfl
@[simp] theorem State.writeI_inFrame (n : Nat) : (s.writeI n).inFrame = s.inFrame := rfl
@[simp] theorem State.writeI_executed (n : Nat) : (s.writeI n).executed = s.executed := rfl
@[simp] theorem State.writeI_frameOver (n : Nat) : (s.writeI n).frameOver = s.frameOver := rfl
@[simp] theorem State.writeI_freeCount (n : Nat) : (s.writeI n).freeCount = s.freeCount := rfl
@[simp] theorem State.writeI_cfg (n : Nat) : (s.writeI n).cfg = s.cfg := rfl

@[simp] theorem State.setPc_v (w : Word) : (s.setPc w).v = s.v := rfl
@[simp] theorem State.setPc_i (w : Word) : (s.setPc w).i = s.i := rfl
@[simp] theorem State.setPc_pc (w : Word) : (s.setPc w).pc = w := rfl
@[simp] theorem State.setPc_stack (w : Word) : (s.setPc w).stack = s.stack := rfl
@[simp] theorem State.setPc_dt (w : Word) : (s.setPc w).dt = s.dt := rfl
@[simp] theorem State.setPc_st (w : Word) : (s.setPc w).st = s.st := rfl
@[simp] theorem State.setPc_mem (w : Word) : (s.setPc w).mem = s.mem := rfl
@[simp] theorem State.setPc_display (w : Word) : (s.setPc w).display = s.display := rfl
@[simp] theorem State.setPc_key (w : Word) : (s.setPc w).key = s.key := rfl
@[simp] theorem State.setPc_prevKey (w : Word) : (s.setPc w).prevKey = s.prevKey := rfl
@[simp] theorem State.setPc_halted (w : Word) : (s.setPc w).halted = s.halted := rfl
@[simp] theorem State.setPc_faultKind (w : Word) : (s.setPc w).faultKind = s.faultKind := rfl
@[simp] theorem State.setPc_inFrame (w : Word) : (s.setPc w).inFrame = s.inFrame := rfl
@[simp] theorem State.setPc_executed (w : Word) : (s.setPc w).executed = s.executed := rfl
@[simp] theorem State.setPc_frameOver (w : Word) : (s.setPc w).frameOver = s.frameOver := rfl
@[simp] theorem State.setPc_freeCount (w : Word) : (s.setPc w).freeCount = s.freeCount := rfl
@[simp] theorem State.setPc_cfg (w : Word) : (s.setPc w).cfg = s.cfg := rfl

@[simp] theorem State.advance_v : (s.advance).v = s.v := rfl
@[simp] theorem State.advance_i : (s.advance).i = s.i := rfl
@[simp] theorem State.advance_pc : (s.advance).pc = s.pc + 2 := rfl
@[simp] theorem State.advance_stack : (s.advance).stack = s.stack := rfl
@[simp] theorem State.advance_dt : (s.advance).dt = s.dt := rfl
@[simp] theorem State.advance_st : (s.advance).st = s.st := rfl
@[simp] theorem State.advance_mem : (s.advance).mem = s.mem := rfl
@[simp] theorem State.advance_display : (s.advance).display = s.display := rfl
@[simp] theorem State.advance_key : (s.advance).key = s.key := rfl
@[simp] theorem State.advance_prevKey : (s.advance).prevKey = s.prevKey := rfl
@[simp] theorem State.advance_halted : (s.advance).halted = s.halted := rfl
@[simp] theorem State.advance_faultKind : (s.advance).faultKind = s.faultKind := rfl
@[simp] theorem State.advance_inFrame : (s.advance).inFrame = s.inFrame := rfl
@[simp] theorem State.advance_executed : (s.advance).executed = s.executed := rfl
@[simp] theorem State.advance_frameOver : (s.advance).frameOver = s.frameOver := rfl
@[simp] theorem State.advance_freeCount : (s.advance).freeCount = s.freeCount := rfl
@[simp] theorem State.advance_cfg : (s.advance).cfg = s.cfg := rfl

@[simp] theorem State.rewind_v : (s.rewind).v = s.v := rfl
@[simp] theorem State.rewind_i : (s.rewind).i = s.i := rfl
@[simp] theorem State.rewind_pc : (s.rewind).pc = s.pc - 2 := rfl
@[simp] theorem State.rewind_stack : (s.rewind).stack = s.stack := rfl
@[simp] theorem State.rewind_dt : (s.rewind).dt = s.dt := rfl
@[simp] theorem State.rewind_st : (s.rewind).st = s.st := rfl
@[simp] theorem State.rewind_mem : (s.rewind).mem = s.mem := rfl
@[simp] theorem State.rewind_display : (s.rewind).display = s.display := rfl
@[simp] theorem State.rewind_key : (s.rewind).key = s.key := rfl
@[simp] theorem State.rewind_prevKey : (s.rewind).prevKey = s.prevKey := rfl
@[simp] theorem State.rewind_halted : (s.rewind).halted = s.halted := rfl
@[simp] theorem State.rewind_faultKind : (s.rewind).faultKind = s.faultKind := rfl
@[simp] theorem State.rewind_inFrame : (s.rewind).inFrame = s.inFrame := rfl
@[simp] theorem State.rewind_executed : (s.rewind).executed = s.executed := rfl
@[simp] theorem State.rewind_frameOver : (s.rewind).frameOver = s.frameOver := rfl
@[simp] theorem State.rewind_freeCount : (s.rewind).freeCount = s.freeCount := rfl
@[simp] theorem State.rewind_cfg : (s.rewind).cfg = s.cfg := rfl

@[simp] theorem State.skipIf_v (c : Bool) : (s.skipIf c).v = s.v := by cases c <;> rfl
@[simp] theorem State.skipIf_i (c : Bool) : (s.skipIf c).i = s.i := by cases c <;> rfl
@[simp] theorem State.skipIf_pc (c : Bool) : (s.skipIf c).pc = if c then s.pc + 2 else s.pc := by cases c <;> rfl
@[simp] theorem State.skipIf_stack (c : Bool) : (s.skipIf c).stack = s.stack := by cases c <;> rfl
@[simp] theorem State.skipIf_dt (c : Bool) : (s.skipIf c).dt = s.dt := by cases c <;> rfl
@[simp] theorem State.skipIf_st (c : Bool) : (s.skipIf c).st = s.st := by cases c <;> rfl
@[simp] theorem State.skipIf_mem (c : Bool) : (s.skipIf c).mem = s.mem := by cases c <;> rfl
@[simp] theorem State.skipIf_display (c : Bool) : (s.skipIf c).display = s.display := by cases c <;> rfl
@[simp] theorem State.skipIf_key (c : Bool) : (s.skipIf c).key = s.key := by cases c <;> rfl
@[simp] theorem State.skipIf_prevKey (c : Bool) : (s.skipIf c).prevKey = s.prevKey := by cases c <;> rfl
@[simp] theorem State.skipIf_halted (c : Bool) : (s.skipIf c).halted = s.halted := by cases c <;> rfl
@[simp] theorem State.skipIf_faultKind (c : Bool) : (s.skipIf c).faultKind = s.faultKind := by cases c <;> rfl
@[simp] theorem State.skipIf_inFrame (c : Bool) : (s.skipIf c).inFrame = s.inFrame := by cases c <;> rfl
@[simp] theorem State.skipIf_executed (c : Bool) : (s.skipIf c).executed = s.executed := by cases c <;> rfl
@[simp] theorem State.skipIf_frameOver (c : Bool) : (s.skipIf c).frameOver = s.frameOver := by cases c <;> rfl
@[simp] theorem State.skipIf_freeCount (c : Bool) : (s.skipIf c).freeCount = s.freeCount := by cases c <;> rfl
@[simp] theorem State.skipIf_cfg (c : Bool) : (s.skipIf c).cfg = s.cfg := by cases c <;> rfl

@[simp] theorem State.writeDt_v (b : Byte) : (s.writeDt b).v = s.v := rfl
@[simp] theorem State.writeDt_i (b : Byte) : (s.writeDt b).i = s.i := rfl
@[simp] theorem State.writeDt_pc (b : Byte) : (s.writeDt b).pc = s.pc := rfl
@[simp] theorem State.writeDt_stack (b : Byte) : (s.writeDt b).stack = s.stack := rfl
@[simp] theorem State.writeDt_dt (b : Byte) : (s.writeDt b).dt = b := rfl
@[simp] theorem State.writeDt_st (b : Byte) : (s.writeDt b).st = s.st := rfl
@[simp] theorem State.writeDt_mem (b : Byte) : (s.writeDt b).mem = s.mem := rfl
@[simp] theorem State.writeDt_display (b : Byte) : (s.writeDt b).display = s.display := rfl
@[simp] theorem State.writeDt_key (b : Byte) : (s.writeDt b).key = s.key := rfl
@[simp] theorem State.writeDt_prevKey (b : Byte) : (s.writeDt b).prevKey = s.prevKey := rfl
@[simp] theorem State.writeDt_halted (b : Byte) : (s.writeDt b).halted = s.halted := rfl
@[simp] theorem State.writeDt_faultKind (b : Byte) : (s.writeDt b).faultKind = s.faultKind := rfl
@[simp] theorem State.writeDt_inFrame (b : Byte) : (s.writeDt b).inFrame = s.inFrame := rfl
@[simp] theorem State.writeDt_executed (b : Byte) : (s.writeDt b).executed = s.executed := rfl
@[simp] theorem State.writeDt_frameOver (b : Byte) : (s.writeDt b).frameOver = s.frameOver := rfl
@[simp] theorem State.writeDt_freeCount (b : Byte) : (s.writeDt b).freeCount = s.freeCount := rfl
@[simp] theorem State.writeDt_cfg (b : Byte) : (s.writeDt b).cfg = s.cfg := rfl

@[simp] theorem State.writeSt_v (b : Byte) : (s.writeSt b).v = s.v := rfl
@[simp] theorem State.writeSt_i (b : Byte) : (s.writeSt b).i = s.i := rfl
@[simp] theorem State.writeSt_pc (b : Byte) : (s.writeSt b).pc = s.pc := rfl
@[simp] theorem State.writeSt_stack (b : Byte) : (s.writeSt b).stack = s.stack := rfl
@[simp] theorem State.writeSt_dt (b : Byte) : (s.writeSt b).dt = s.dt := rfl
@[simp] theorem State.writeSt_st (b : Byte) : (s.writeSt b).st = b := rfl
@[simp] theorem State.writeSt_mem (b : Byte) : (s.writeSt b).mem = s.mem := rfl
@[simp] theorem State.writeSt_display (b : Byte) : (s.writeSt b).display = s.display := rfl
@[simp] theorem State.writeSt_key (b : Byte) : (s.writeSt b).key = s.key := rfl
@[simp] theorem State.writeSt_prevKey (b : Byte) : (s.writeSt b).prevKey = s.prevKey := rfl
@[simp] theorem State.writeSt_halted (b : Byte) : (s.writeSt b).halted = s.halted := rfl
@[simp] theorem State.writeSt_faultKind (b : Byte) : (s.writeSt b).faultKind = s.faultKind := rfl
@[simp] theorem State.writeSt_inFrame (b : Byte) : (s.writeSt b).inFrame = s.inFrame := rfl
@[simp] theorem State.writeSt_executed (b : Byte) : (s.writeSt b).executed = s.executed := rfl
@[simp] theorem State.writeSt_frameOver (b : Byte) : (s.writeSt b).frameOver = s.frameOver := rfl
@[simp] theorem State.writeSt_freeCount (b : Byte) : (s.writeSt b).freeCount = s.freeCount := rfl
@[simp] theorem State.writeSt_cfg (b : Byte) : (s.writeSt b).cfg = s.cfg := rfl

@[simp] theorem State.setDisplay_v (d : Display) : (s.setDisplay d).v = s.v := rfl
@[simp] theorem State.setDisplay_i (d : Display) : (s.setDisplay d).i = s.i := rfl
@[simp] theorem State.setDisplay_pc (d : Display) : (s.setDisplay d).pc = s.pc := rfl
@[simp] theorem State.setDisplay_stack (d : Display) : (s.setDisplay d).stack = s.stack := rfl
@[simp] theorem State.setDisplay_dt (d : Display) : (s.setDisplay d).dt = s.dt := rfl
@[simp] theorem State.setDisplay_st (d : Display) : (s.setDisplay d).st = s.st := rfl
@[simp] theorem State.setDisplay_mem (d : Display) : (s.setDisplay d).mem = s.mem := rfl
@[simp] theorem State.setDisplay_display (d : Display) : (s.setDisplay d).display = d := rfl
@[simp] theorem State.setDisplay_key (d : Display) : (s.setDisplay d).key = s.key := rfl
@[simp] theorem State.setDisplay_prevKey (d : Display) : (s.setDisplay d).prevKey = s.prevKey := rfl
@[simp] theorem State.setDisplay_halted (d : Display) : (s.setDisplay d).halted = s.halted := rfl
@[simp] theorem State.setDisplay_faultKind (d : Display) : (s.setDisplay d).faultKind = s.faultKind := rfl
@[simp] theorem State.setDisplay_inFrame (d : Display) : (s.setDisplay d).inFrame = s.inFrame := rfl
@[simp] theorem State.setDisplay_executed (d : Display) : (s.setDisplay d).executed = s.executed := rfl
@[simp] theorem State.setDisplay_frameOver (d : Display) : (s.setDisplay d).frameOver = s.frameOver := rfl
@[simp] theorem State.setDisplay_freeCount (d : Display) : (s.setDisplay d).freeCount = s.freeCount := rfl
@[simp] theorem State.setDisplay_cfg (d : Display) : (s.setDisplay d).cfg = s.cfg := rfl

@[simp] theorem State.endFrameEarly_v : (s.endFrameEarly).v = s.v := rfl
@[simp] theorem State.endFrameEarly_i : (s.endFrameEarly).i = s.i := rfl
@[simp] theorem State.endFrameEarly_pc : (s.endFrameEarly).pc = s.pc := rfl
@[simp] theorem State.endFrameEarly_stack : (s.endFrameEarly).stack = s.stack := rfl
@[simp] theorem State.endFrameEarly_dt : (s.endFrameEarly).dt = s.dt := rfl
@[simp] theorem State.endFrameEarly_st : (s.endFrameEarly).st = s.st := rfl
@[simp] theorem State.endFrameEarly_mem : (s.endFrameEarly).mem = s.mem := rfl
@[simp] theorem State.endFrameEarly_display : (s.endFrameEarly).display = s.display := rfl
@[simp] theorem State.endFrameEarly_key : (s.endFrameEarly).key = s.key := rfl
@[simp] theorem State.endFrameEarly_prevKey : (s.endFrameEarly).prevKey = s.prevKey := rfl
@[simp] theorem State.endFrameEarly_halted : (s.endFrameEarly).halted = s.halted := rfl
@[simp] theorem State.endFrameEarly_faultKind : (s.endFrameEarly).faultKind = s.faultKind := rfl
@[simp] theorem State.endFrameEarly_inFrame : (s.endFrameEarly).inFrame = s.inFrame := rfl
@[simp] theorem State.endFrameEarly_executed : (s.endFrameEarly).executed = s.executed := rfl
@[simp] theorem State.endFrameEarly_frameOver : (s.endFrameEarly).frameOver = true := rfl
@[simp] theorem State.endFrameEarly_freeCount : (s.endFrameEarly).freeCount = s.freeCount := rfl
@[simp] theorem State.endFrameEarly_cfg : (s.endFrameEarly).cfg = s.cfg := rfl

@[simp] theorem State.drawFree_v : (s.drawFree).v = s.v := rfl
@[simp] theorem State.drawFree_i : (s.drawFree).i = s.i := rfl
@[simp] theorem State.drawFree_pc : (s.drawFree).pc = s.pc := rfl
@[simp] theorem State.drawFree_stack : (s.drawFree).stack = s.stack := rfl
@[simp] theorem State.drawFree_dt : (s.drawFree).dt = s.dt := rfl
@[simp] theorem State.drawFree_st : (s.drawFree).st = s.st := rfl
@[simp] theorem State.drawFree_mem : (s.drawFree).mem = s.mem := rfl
@[simp] theorem State.drawFree_display : (s.drawFree).display = s.display := rfl
@[simp] theorem State.drawFree_key : (s.drawFree).key = s.key := rfl
@[simp] theorem State.drawFree_prevKey : (s.drawFree).prevKey = s.prevKey := rfl
@[simp] theorem State.drawFree_halted : (s.drawFree).halted = s.halted := rfl
@[simp] theorem State.drawFree_faultKind : (s.drawFree).faultKind = s.faultKind := rfl
@[simp] theorem State.drawFree_inFrame : (s.drawFree).inFrame = s.inFrame := rfl
@[simp] theorem State.drawFree_executed : (s.drawFree).executed = s.executed := rfl
@[simp] theorem State.drawFree_frameOver : (s.drawFree).frameOver = s.frameOver := rfl
@[simp] theorem State.drawFree_freeCount : (s.drawFree).freeCount = s.freeCount + 1 := rfl
@[simp] theorem State.drawFree_cfg : (s.drawFree).cfg = s.cfg := rfl

@[simp] theorem State.enterFault_v (k : Fault) : (s.enterFault k).v = s.v := rfl
@[simp] theorem State.enterFault_i (k : Fault) : (s.enterFault k).i = s.i := rfl
@[simp] theorem State.enterFault_pc (k : Fault) : (s.enterFault k).pc = s.pc := rfl
@[simp] theorem State.enterFault_stack (k : Fault) : (s.enterFault k).stack = s.stack := rfl
@[simp] theorem State.enterFault_dt (k : Fault) : (s.enterFault k).dt = s.dt := rfl
@[simp] theorem State.enterFault_st (k : Fault) : (s.enterFault k).st = s.st := rfl
@[simp] theorem State.enterFault_mem (k : Fault) : (s.enterFault k).mem = s.mem := rfl
@[simp] theorem State.enterFault_display (k : Fault) : (s.enterFault k).display = s.display := rfl
@[simp] theorem State.enterFault_key (k : Fault) : (s.enterFault k).key = s.key := rfl
@[simp] theorem State.enterFault_prevKey (k : Fault) : (s.enterFault k).prevKey = s.prevKey := rfl
@[simp] theorem State.enterFault_halted (k : Fault) : (s.enterFault k).halted = true := rfl
@[simp] theorem State.enterFault_faultKind (k : Fault) : (s.enterFault k).faultKind = some k := rfl
@[simp] theorem State.enterFault_inFrame (k : Fault) : (s.enterFault k).inFrame = s.inFrame := rfl
@[simp] theorem State.enterFault_executed (k : Fault) : (s.enterFault k).executed = s.executed := rfl
@[simp] theorem State.enterFault_frameOver (k : Fault) : (s.enterFault k).frameOver = s.frameOver := rfl
@[simp] theorem State.enterFault_freeCount (k : Fault) : (s.enterFault k).freeCount = s.freeCount := rfl
@[simp] theorem State.enterFault_cfg (k : Fault) : (s.enterFault k).cfg = s.cfg := rfl

@[simp] theorem countStep_v : (countStep s).v = s.v := rfl
@[simp] theorem countStep_i : (countStep s).i = s.i := rfl
@[simp] theorem countStep_pc : (countStep s).pc = s.pc := rfl
@[simp] theorem countStep_stack : (countStep s).stack = s.stack := rfl
@[simp] theorem countStep_dt : (countStep s).dt = s.dt := rfl
@[simp] theorem countStep_st : (countStep s).st = s.st := rfl
@[simp] theorem countStep_mem : (countStep s).mem = s.mem := rfl
@[simp] theorem countStep_display : (countStep s).display = s.display := rfl
@[simp] theorem countStep_key : (countStep s).key = s.key := rfl
@[simp] theorem countStep_prevKey : (countStep s).prevKey = s.prevKey := rfl
@[simp] theorem countStep_halted : (countStep s).halted = s.halted := rfl
@[simp] theorem countStep_faultKind : (countStep s).faultKind = s.faultKind := rfl
@[simp] theorem countStep_inFrame : (countStep s).inFrame = s.inFrame := rfl
@[simp] theorem countStep_executed : (countStep s).executed = s.executed + 1 := rfl
@[simp] theorem countStep_frameOver : (countStep s).frameOver = s.frameOver := rfl
@[simp] theorem countStep_freeCount : (countStep s).freeCount = s.freeCount := rfl
@[simp] theorem countStep_cfg : (countStep s).cfg = s.cfg := rfl

@[simp] theorem endFrame_v : (endFrame s).v = s.v := rfl
@[simp] theorem endFrame_i : (endFrame s).i = s.i := rfl
@[simp] theorem endFrame_pc : (endFrame s).pc = s.pc := rfl
@[simp] theorem endFrame_stack : (endFrame s).stack = s.stack := rfl
@[simp] theorem endFrame_dt : (endFrame s).dt = s.dt := rfl
@[simp] theorem endFrame_st : (endFrame s).st = s.st := rfl
@[simp] theorem endFrame_mem : (endFrame s).mem = s.mem := rfl
@[simp] theorem endFrame_display : (endFrame s).display = s.display := rfl
@[simp] theorem endFrame_key : (endFrame s).key = s.key := rfl
@[simp] theorem endFrame_prevKey : (endFrame s).prevKey = s.prevKey := rfl
@[simp] theorem endFrame_halted : (endFrame s).halted = s.halted := rfl
@[simp] theorem endFrame_faultKind : (endFrame s).faultKind = s.faultKind := rfl
@[simp] theorem endFrame_inFrame : (endFrame s).inFrame = false := rfl
@[simp] theorem endFrame_executed : (endFrame s).executed = 0 := rfl
@[simp] theorem endFrame_frameOver : (endFrame s).frameOver = false := rfl
@[simp] theorem endFrame_freeCount : (endFrame s).freeCount = s.freeCount := rfl
@[simp] theorem endFrame_cfg : (endFrame s).cfg = s.cfg := rfl

@[simp] theorem State.writeResult_v (x : Reg) (r : Byte) (g : Bool) : (s.writeResult x r g).v = (s.v.set x.toNat r x.isLt).set 15 (flagByte g) := rfl
@[simp] theorem State.writeResult_i (x : Reg) (r : Byte) (g : Bool) : (s.writeResult x r g).i = s.i := rfl
@[simp] theorem State.writeResult_pc (x : Reg) (r : Byte) (g : Bool) : (s.writeResult x r g).pc = s.pc := rfl
@[simp] theorem State.writeResult_stack (x : Reg) (r : Byte) (g : Bool) : (s.writeResult x r g).stack = s.stack := rfl
@[simp] theorem State.writeResult_dt (x : Reg) (r : Byte) (g : Bool) : (s.writeResult x r g).dt = s.dt := rfl
@[simp] theorem State.writeResult_st (x : Reg) (r : Byte) (g : Bool) : (s.writeResult x r g).st = s.st := rfl
@[simp] theorem State.writeResult_mem (x : Reg) (r : Byte) (g : Bool) : (s.writeResult x r g).mem = s.mem := rfl
@[simp] theorem State.writeResult_display (x : Reg) (r : Byte) (g : Bool) : (s.writeResult x r g).display = s.display := rfl
@[simp] theorem State.writeResult_key (x : Reg) (r : Byte) (g : Bool) : (s.writeResult x r g).key = s.key := rfl
@[simp] theorem State.writeResult_prevKey (x : Reg) (r : Byte) (g : Bool) : (s.writeResult x r g).prevKey = s.prevKey := rfl
@[simp] theorem State.writeResult_halted (x : Reg) (r : Byte) (g : Bool) : (s.writeResult x r g).halted = s.halted := rfl
@[simp] theorem State.writeResult_faultKind (x : Reg) (r : Byte) (g : Bool) : (s.writeResult x r g).faultKind = s.faultKind := rfl
@[simp] theorem State.writeResult_inFrame (x : Reg) (r : Byte) (g : Bool) : (s.writeResult x r g).inFrame = s.inFrame := rfl
@[simp] theorem State.writeResult_executed (x : Reg) (r : Byte) (g : Bool) : (s.writeResult x r g).executed = s.executed := rfl
@[simp] theorem State.writeResult_frameOver (x : Reg) (r : Byte) (g : Bool) : (s.writeResult x r g).frameOver = s.frameOver := rfl
@[simp] theorem State.writeResult_freeCount (x : Reg) (r : Byte) (g : Bool) : (s.writeResult x r g).freeCount = s.freeCount := rfl
@[simp] theorem State.writeResult_cfg (x : Reg) (r : Byte) (g : Bool) : (s.writeResult x r g).cfg = s.cfg := rfl

@[simp] theorem State.advanceIndex_v (x : Reg) : (s.advanceIndex x).v = s.v := by unfold State.advanceIndex; split <;> rfl
@[simp] theorem State.advanceIndex_i (x : Reg) : (s.advanceIndex x).i = if s.cfg.indexAdvance then BitVec.ofNat 16 ((s.i.toNat + x.toNat + 1) % 4096) else s.i := by unfold State.advanceIndex; split <;> rfl
@[simp] theorem State.advanceIndex_pc (x : Reg) : (s.advanceIndex x).pc = s.pc := by unfold State.advanceIndex; split <;> rfl
@[simp] theorem State.advanceIndex_stack (x : Reg) : (s.advanceIndex x).stack = s.stack := by unfold State.advanceIndex; split <;> rfl
@[simp] theorem State.advanceIndex_dt (x : Reg) : (s.advanceIndex x).dt = s.dt := by unfold State.advanceIndex; split <;> rfl
@[simp] theorem State.advanceIndex_st (x : Reg) : (s.advanceIndex x).st = s.st := by unfold State.advanceIndex; split <;> rfl
@[simp] theorem State.advanceIndex_mem (x : Reg) : (s.advanceIndex x).mem = s.mem := by unfold State.advanceIndex; split <;> rfl
@[simp] theorem State.advanceIndex_display (x : Reg) : (s.advanceIndex x).display = s.display := by unfold State.advanceIndex; split <;> rfl
@[simp] theorem State.advanceIndex_key (x : Reg) : (s.advanceIndex x).key = s.key := by unfold State.advanceIndex; split <;> rfl
@[simp] theorem State.advanceIndex_prevKey (x : Reg) : (s.advanceIndex x).prevKey = s.prevKey := by unfold State.advanceIndex; split <;> rfl
@[simp] theorem State.advanceIndex_halted (x : Reg) : (s.advanceIndex x).halted = s.halted := by unfold State.advanceIndex; split <;> rfl
@[simp] theorem State.advanceIndex_faultKind (x : Reg) : (s.advanceIndex x).faultKind = s.faultKind := by unfold State.advanceIndex; split <;> rfl
@[simp] theorem State.advanceIndex_inFrame (x : Reg) : (s.advanceIndex x).inFrame = s.inFrame := by unfold State.advanceIndex; split <;> rfl
@[simp] theorem State.advanceIndex_executed (x : Reg) : (s.advanceIndex x).executed = s.executed := by unfold State.advanceIndex; split <;> rfl
@[simp] theorem State.advanceIndex_frameOver (x : Reg) : (s.advanceIndex x).frameOver = s.frameOver := by unfold State.advanceIndex; split <;> rfl
@[simp] theorem State.advanceIndex_freeCount (x : Reg) : (s.advanceIndex x).freeCount = s.freeCount := by unfold State.advanceIndex; split <;> rfl
@[simp] theorem State.advanceIndex_cfg (x : Reg) : (s.advanceIndex x).cfg = s.cfg := by unfold State.advanceIndex; split <;> rfl

@[simp] theorem State.setMem_v (m : Memory) : (s.setMem m).v = s.v := rfl
@[simp] theorem State.setMem_i (m : Memory) : (s.setMem m).i = s.i := rfl
@[simp] theorem State.setMem_pc (m : Memory) : (s.setMem m).pc = s.pc := rfl
@[simp] theorem State.setMem_stack (m : Memory) : (s.setMem m).stack = s.stack := rfl
@[simp] theorem State.setMem_dt (m : Memory) : (s.setMem m).dt = s.dt := rfl
@[simp] theorem State.setMem_st (m : Memory) : (s.setMem m).st = s.st := rfl
@[simp] theorem State.setMem_mem (m : Memory) : (s.setMem m).mem = m := rfl
@[simp] theorem State.setMem_display (m : Memory) : (s.setMem m).display = s.display := rfl
@[simp] theorem State.setMem_key (m : Memory) : (s.setMem m).key = s.key := rfl
@[simp] theorem State.setMem_prevKey (m : Memory) : (s.setMem m).prevKey = s.prevKey := rfl
@[simp] theorem State.setMem_halted (m : Memory) : (s.setMem m).halted = s.halted := rfl
@[simp] theorem State.setMem_faultKind (m : Memory) : (s.setMem m).faultKind = s.faultKind := rfl
@[simp] theorem State.setMem_inFrame (m : Memory) : (s.setMem m).inFrame = s.inFrame := rfl
@[simp] theorem State.setMem_executed (m : Memory) : (s.setMem m).executed = s.executed := rfl
@[simp] theorem State.setMem_frameOver (m : Memory) : (s.setMem m).frameOver = s.frameOver := rfl
@[simp] theorem State.setMem_freeCount (m : Memory) : (s.setMem m).freeCount = s.freeCount := rfl
@[simp] theorem State.setMem_cfg (m : Memory) : (s.setMem m).cfg = s.cfg := rfl

@[simp] theorem State.setStack_v (ws : List Word) : (s.setStack ws).v = s.v := rfl
@[simp] theorem State.setStack_i (ws : List Word) : (s.setStack ws).i = s.i := rfl
@[simp] theorem State.setStack_pc (ws : List Word) : (s.setStack ws).pc = s.pc := rfl
@[simp] theorem State.setStack_stack (ws : List Word) : (s.setStack ws).stack = ws := rfl
@[simp] theorem State.setStack_dt (ws : List Word) : (s.setStack ws).dt = s.dt := rfl
@[simp] theorem State.setStack_st (ws : List Word) : (s.setStack ws).st = s.st := rfl
@[simp] theorem State.setStack_mem (ws : List Word) : (s.setStack ws).mem = s.mem := rfl
@[simp] theorem State.setStack_display (ws : List Word) : (s.setStack ws).display = s.display := rfl
@[simp] theorem State.setStack_key (ws : List Word) : (s.setStack ws).key = s.key := rfl
@[simp] theorem State.setStack_prevKey (ws : List Word) : (s.setStack ws).prevKey = s.prevKey := rfl
@[simp] theorem State.setStack_halted (ws : List Word) : (s.setStack ws).halted = s.halted := rfl
@[simp] theorem State.setStack_faultKind (ws : List Word) : (s.setStack ws).faultKind = s.faultKind := rfl
@[simp] theorem State.setStack_inFrame (ws : List Word) : (s.setStack ws).inFrame = s.inFrame := rfl
@[simp] theorem State.setStack_executed (ws : List Word) : (s.setStack ws).executed = s.executed := rfl
@[simp] theorem State.setStack_frameOver (ws : List Word) : (s.setStack ws).frameOver = s.frameOver := rfl
@[simp] theorem State.setStack_freeCount (ws : List Word) : (s.setStack ws).freeCount = s.freeCount := rfl
@[simp] theorem State.setStack_cfg (ws : List Word) : (s.setStack ws).cfg = s.cfg := rfl

/-! Registers and memory bytes as they read, under the updates that leave them. -/

@[simp] theorem State.setMem_readV (m : Memory) (k : Reg) : (s.setMem m).readV k = s.readV k := by simp [State.readV]
@[simp] theorem State.setStack_readV (ws : List Word) (k : Reg) : (s.setStack ws).readV k = s.readV k := by simp [State.readV]
@[simp] theorem State.writeI_readV (n : Nat) (k : Reg) : (s.writeI n).readV k = s.readV k := by simp [State.readV]
@[simp] theorem State.setPc_readV (w : Word) (k : Reg) : (s.setPc w).readV k = s.readV k := by simp [State.readV]
@[simp] theorem State.advance_readV (k : Reg) : (s.advance).readV k = s.readV k := by simp [State.readV]
@[simp] theorem State.rewind_readV (k : Reg) : (s.rewind).readV k = s.readV k := by simp [State.readV]
@[simp] theorem State.skipIf_readV (c : Bool) (k : Reg) : (s.skipIf c).readV k = s.readV k := by simp [State.readV]
@[simp] theorem State.writeDt_readV (b : Byte) (k : Reg) : (s.writeDt b).readV k = s.readV k := by simp [State.readV]
@[simp] theorem State.writeSt_readV (b : Byte) (k : Reg) : (s.writeSt b).readV k = s.readV k := by simp [State.readV]
@[simp] theorem State.setDisplay_readV (d : Display) (k : Reg) : (s.setDisplay d).readV k = s.readV k := by simp [State.readV]
@[simp] theorem State.endFrameEarly_readV (k : Reg) : (s.endFrameEarly).readV k = s.readV k := by simp [State.readV]
@[simp] theorem State.drawFree_readV (k : Reg) : (s.drawFree).readV k = s.readV k := by simp [State.readV]
@[simp] theorem State.enterFault_readV (e : Fault) (k : Reg) : (s.enterFault e).readV k = s.readV k := by simp [State.readV]
@[simp] theorem countStep_readV (k : Reg) : (countStep s).readV k = s.readV k := by simp [State.readV]
@[simp] theorem endFrame_readV (k : Reg) : (endFrame s).readV k = s.readV k := by simp [State.readV]
@[simp] theorem State.advanceIndex_readV (x : Reg) (k : Reg) : (s.advanceIndex x).readV k = s.readV k := by simp [State.readV]

@[simp] theorem State.setStack_memByte (ws : List Word) (k : Nat) : (s.setStack ws).memByte k = s.memByte k := by simp [State.memByte]
@[simp] theorem State.writeI_memByte (n : Nat) (k : Nat) : (s.writeI n).memByte k = s.memByte k := by simp [State.memByte]
@[simp] theorem State.setPc_memByte (w : Word) (k : Nat) : (s.setPc w).memByte k = s.memByte k := by simp [State.memByte]
@[simp] theorem State.advance_memByte (k : Nat) : (s.advance).memByte k = s.memByte k := by simp [State.memByte]
@[simp] theorem State.rewind_memByte (k : Nat) : (s.rewind).memByte k = s.memByte k := by simp [State.memByte]
@[simp] theorem State.skipIf_memByte (c : Bool) (k : Nat) : (s.skipIf c).memByte k = s.memByte k := by simp [State.memByte]
@[simp] theorem State.writeDt_memByte (b : Byte) (k : Nat) : (s.writeDt b).memByte k = s.memByte k := by simp [State.memByte]
@[simp] theorem State.writeSt_memByte (b : Byte) (k : Nat) : (s.writeSt b).memByte k = s.memByte k := by simp [State.memByte]
@[simp] theorem State.setDisplay_memByte (d : Display) (k : Nat) : (s.setDisplay d).memByte k = s.memByte k := by simp [State.memByte]
@[simp] theorem State.endFrameEarly_memByte (k : Nat) : (s.endFrameEarly).memByte k = s.memByte k := by simp [State.memByte]
@[simp] theorem State.drawFree_memByte (k : Nat) : (s.drawFree).memByte k = s.memByte k := by simp [State.memByte]
@[simp] theorem State.enterFault_memByte (e : Fault) (k : Nat) : (s.enterFault e).memByte k = s.memByte k := by simp [State.memByte]
@[simp] theorem countStep_memByte (k : Nat) : (countStep s).memByte k = s.memByte k := by simp [State.memByte]
@[simp] theorem endFrame_memByte (k : Nat) : (endFrame s).memByte k = s.memByte k := by simp [State.memByte]
@[simp] theorem State.advanceIndex_memByte (x : Reg) (k : Nat) : (s.advanceIndex x).memByte k = s.memByte k := by simp [State.memByte]
@[simp] theorem State.writeV_memByte (x : Reg) (b : Byte) (k : Nat) : (s.writeV x b).memByte k = s.memByte k := by simp [State.memByte]
@[simp] theorem State.setV_memByte (w : Vector Byte 16) (k : Nat) : (s.setV w).memByte k = s.memByte k := by simp [State.memByte]
@[simp] theorem State.writeResult_memByte (x : Reg) (r : Byte) (g : Bool) (k : Nat) : (s.writeResult x r g).memByte k = s.memByte k := by simp [State.memByte]

end Sys2Proof.Machine
end

