-- ==== Sys2Proof/Laws/Memory.lean ====
section
/-! SUPPORT. Memory: what a read after a write gives, on any list; and that every operation keeps the canonical
form. -/

namespace Sys2Proof.Machine

variable (c : Config) (m : Memory)

/-! ## Reading -/

theorem Memory.read_of_absent (a : Nat) (h : ∀ e ∈ m, e.1 ≠ a) : Memory.read c m a = Memory.unlisted c a := by
  induction m with
  | nil => rfl
  | cons e rest ih =>
    simp only [List.mem_cons, forall_eq_or_imp] at h
    simp only [Memory.read, h.1, if_false]
    exact ih h.2

theorem Memory.mem_erase_ne {a : Nat} {e : Host.Cell} (h : e ∈ Memory.erase a m) : e.1 ≠ a := by
  simpa [Memory.erase] using (List.mem_filter.mp h).2

theorem Memory.read_erase (a a' : Nat) :
    Memory.read c (Memory.erase a m) a' = if a' = a then Memory.unlisted c a else Memory.read c m a' := by
  split
  · next h => subst h; exact Memory.read_of_absent c _ _ fun e he => Memory.mem_erase_ne m he
  · next h =>
    induction m with
    | nil => rfl
    | cons e rest ih =>
      by_cases ha : e.1 = a
      · have : Memory.erase a (e :: rest) = Memory.erase a rest := by simp [Memory.erase, ha]
        rw [this, ih, Memory.read, if_neg (by omega)]
      · have : Memory.erase a (e :: rest) = e :: Memory.erase a rest := by simp [Memory.erase, ha]
        rw [this, Memory.read, Memory.read, ih]

theorem Memory.read_insert (a a' : Nat) (b : Byte) (h : ∀ e ∈ m, e.1 ≠ a) :
    Memory.read c (Memory.insert a b m) a' = if a' = a then b else Memory.read c m a' := by
  induction m with
  | nil => simp only [Memory.insert, Memory.read, eq_comm]
  | cons e rest ih =>
    simp only [List.mem_cons, forall_eq_or_imp] at h
    simp only [Memory.insert]
    by_cases h' : a' = a
    · split
      · simp [Memory.read, h']
      · have := ih h.2
        simp only [h', if_true] at this
        simp [Memory.read, h', h.1, this]
    · have := ih h.2
      simp only [h', if_false] at this
      split
      · simp [Memory.read, Ne.symm h']
      · simp [Memory.read, this]

/-- A read after a write gives the byte written, and every other byte as before. -/
@[simp] theorem Memory.read_write (a a' : Nat) (b : Byte) :
    Memory.read c (Memory.write c m a b) a' = if a' = a then b else Memory.read c m a' := by
  unfold Memory.write
  split
  · next h => rw [Memory.read_erase, h]
  · rw [Memory.read_insert _ _ _ _ _ fun e he => Memory.mem_erase_ne m he]
    split
    · rfl
    · next h => rw [Memory.read_erase, if_neg h]

/-- A read after a write of consecutive bytes. -/
theorem Memory.read_writeBytes (a a' : Nat) (bs : List Byte) :
    Memory.read c (Memory.writeBytes c m a bs) a' =
      if h : a ≤ a' ∧ a' - a < bs.length then bs[a' - a]'h.2 else Memory.read c m a' := by
  induction bs generalizing m a with
  | nil => simp [Memory.writeBytes]
  | cons b bs ih =>
    rw [Memory.writeBytes, ih, Memory.read_write]
    rcases Nat.lt_trichotomy a' a with h | h | h
    · rw [dif_neg (by omega), dif_neg (by omega), if_neg (by omega)]
    · subst h; simp
    · have e : a' - a = (a' - (a + 1)) + 1 := by omega
      by_cases hl : a' - (a + 1) < bs.length
      · rw [dif_pos ⟨by omega, hl⟩, dif_pos ⟨by omega, by simp; omega⟩]
        simp [e]
      · rw [dif_neg (by omega), dif_neg (by simp; omega), if_neg (by omega)]

/-! ## The canonical form -/

theorem Memory.wf_nil : Memory.wf c [] := by simp [Memory.wf]

theorem Memory.wf_erase (a : Nat) (h : Memory.wf c m) : Memory.wf c (Memory.erase a m) :=
  ⟨h.1.filter _, fun e he => h.2 e (List.mem_filter.mp he).1⟩

theorem Memory.mem_insert {a : Nat} {b : Byte} {e : Host.Cell} :
    e ∈ Memory.insert a b m ↔ e = (a, b) ∨ e ∈ m := by
  induction m with
  | nil => simp [Memory.insert]
  | cons d rest ih =>
    simp only [Memory.insert]
    split <;> simp [ih]; tauto

theorem Memory.wf_insert (a : Nat) (b : Byte) (ha : a < memSize) (hb : b ≠ Memory.unlisted c a)
    (hm : ∀ e ∈ m, e.1 ≠ a) (h : Memory.wf c m) : Memory.wf c (Memory.insert a b m) := by
  refine ⟨?_, fun e he => ?_⟩
  · replace h := h.1
    induction m with
    | nil => simp [Memory.insert]
    | cons d rest ih =>
      simp only [List.mem_cons, forall_eq_or_imp] at hm
      rw [List.pairwise_cons] at h
      simp only [Memory.insert]
      split
      · next hlt =>
        refine List.pairwise_cons.mpr ⟨fun e he => ?_, List.pairwise_cons.mpr h⟩
        rcases List.mem_cons.mp he with rfl | he
        · exact hlt
        · have := h.1 e he; simp only at *; omega
      · next hge =>
        refine List.pairwise_cons.mpr ⟨fun e he => ?_, ih hm.2 h.2⟩
        rcases (Memory.mem_insert rest).mp he with rfl | he
        · have := hm.1; simp only; omega
        · exact h.1 e he
  · rcases (Memory.mem_insert m).mp he with rfl | he
    · exact ⟨ha, hb⟩
    · exact h.2 e he

theorem Memory.wf_write (a : Nat) (b : Byte) (ha : a < memSize) (h : Memory.wf c m) :
    Memory.wf c (Memory.write c m a b) := by
  unfold Memory.write
  split
  · exact Memory.wf_erase c m a h
  · next hb =>
    exact Memory.wf_insert c _ a b ha hb (fun e he => Memory.mem_erase_ne m he) (Memory.wf_erase c m a h)

theorem Memory.wf_writeBytes (a : Nat) (bs : List Byte) (ha : a + bs.length ≤ memSize) (h : Memory.wf c m) :
    Memory.wf c (Memory.writeBytes c m a bs) := by
  induction bs generalizing m a with
  | nil => exact h
  | cons b bs ih =>
    simp only [List.length_cons] at ha
    exact ih _ _ (by omega) (Memory.wf_write c m a b (by omega) h)

theorem State.reset_mem_wf : Memory.wf State.reset.cfg State.reset.mem := Memory.wf_nil _

/-- Canonical memories that read the same are the same list. -/
theorem Memory.eq_of_read_eq (m' : Memory) (h : Memory.wf c m) (h' : Memory.wf c m')
    (hr : ∀ a, Memory.read c m a = Memory.read c m' a) : m = m' := by
  have key : ∀ (p : Memory) (e : Host.Cell), Memory.wf c p → e ∈ p → Memory.read c p e.1 = e.2 := by
    intro p e hp he
    induction p with
    | nil => cases he
    | cons d rest ih =>
      have hp' := List.pairwise_cons.mp hp.1
      rcases List.mem_cons.mp he with rfl | he'
      · simp [Memory.read]
      · have hlt := hp'.1 e he'
        rw [Memory.read, if_neg (by omega)]
        exact ih ⟨hp'.2, fun f hf => hp.2 f (List.mem_cons_of_mem _ hf)⟩ he'
  have sub : ∀ p q : Memory, Memory.wf c p → Memory.wf c q → (∀ a, Memory.read c p a = Memory.read c q a) →
      ∀ e ∈ p, e ∈ q := by
    intro p q hp hq hpq e he
    by_contra hn
    have h1 := key p e hp he
    rw [hpq] at h1
    by_cases hx : ∀ f ∈ q, f.1 ≠ e.1
    · rw [Memory.read_of_absent c q _ hx] at h1
      exact (hp.2 e he).2 h1.symm
    · push Not at hx
      obtain ⟨f, hf, hfe⟩ := hx
      have h2 := key q f hq hf
      rw [hfe, h1] at h2
      exact hn (by rw [show e = f from Prod.ext hfe.symm h2]; exact hf)
  have nd : ∀ p : Memory, Memory.wf c p → p.Nodup := fun p hp =>
    hp.1.imp fun hlt => by rintro rfl; omega
  refine List.Perm.eq_of_pairwise (le := fun d e => d.1 < e.1) ?_ h.1 h'.1
    ((List.perm_ext_iff_of_nodup (nd _ h) (nd _ h')).mpr fun e =>
      ⟨sub _ _ h h' hr e, sub _ _ h' h (fun a => (hr a).symm) e⟩)
  intro a b _ _ h1 h2
  omega

end Sys2Proof.Machine
end

