-- ==== Sys2Proof/Laws/Ops.lean ====
section
/-! SUPPORT. One lemma per shared operation: everything it can answer, and what it leaves. -/

namespace Sys2Proof.Machine

variable (s t : State)

/-! ## Instructions as wholes -/

theorem atomically_ok {e : State → Effect} (h : e s.advance = .ok t) : atomically e s = .next t := by
  simp [atomically, h]

theorem atomically_error {e : State → Effect} {k : Fault} (h : e s.advance = .error k) :
    atomically e s = .next (s.enterFault k) := by
  simp [atomically, h]

/-- An instruction answers a next state: its effect's, or the halted state before it. -/
theorem atomically_eq_next {e : State → Effect} :
    atomically e s = .next t ↔ e s.advance = .ok t ∨ ∃ k, e s.advance = .error k ∧ t = s.enterFault k := by
  unfold atomically
  cases e s.advance <;> simp [eq_comm]

/-- Every instruction is its own pseudocode, `executeAt` at depth 0, run atomically. -/
theorem exec_eq_atomically (i : Instr) : exec i s = atomically (executeAt s.cfg.sysDepthMax i) s := by
  cases i <;> rfl

theorem exec_of_ok {i : Instr} (h : executeAt s.cfg.sysDepthMax i s.advance = .ok t) : exec i s = .next t :=
  (exec_eq_atomically s i).trans (atomically_ok s t h)

theorem exec_of_error {i : Instr} {k : Fault} (h : executeAt s.cfg.sysDepthMax i s.advance = .error k) :
    exec i s = .next (s.enterFault k) :=
  (exec_eq_atomically s i).trans (atomically_error s h)

/-- Everything an instruction can do. -/
theorem exec_eq_next (i : Instr) :
    exec i s = .next t ↔ executeAt s.cfg.sysDepthMax i s.advance = .ok t ∨
      ∃ k, executeAt s.cfg.sysDepthMax i s.advance = .error k ∧ t = s.enterFault k := by
  rw [exec_eq_atomically, atomically_eq_next]

theorem sysAt_refuse (n : Nat) (nnn : Addr) (h : s.cfg.sysMode = .refuse) : sysAt n nnn s = .error .refused := by
  cases n <;> simp [sysAt, h]

theorem sysAt_zero (nnn : Addr) (h : s.cfg.sysMode = .execAt) : sysAt 0 nnn s = .error .sysDepthExceeded := by
  simp [sysAt, h]

theorem sysAt_succ_error {k : Fault} (n : Nat) (nnn : Addr) (h : s.cfg.sysMode = .execAt)
    (hk : instrAt s nnn.toNat = .error k) : sysAt (n + 1) nnn s = .error k := by
  simp [sysAt, h, hk]

theorem sysAt_succ_ok {i : Instr} (n : Nat) (nnn : Addr) (h : s.cfg.sysMode = .execAt)
    (hi : instrAt s nnn.toNat = .ok i) : sysAt (n + 1) nnn s = executeAt n i s := by
  rw [sysAt, hi, if_neg (by simp [h])]
  rfl

/-- An instruction other than 0NNN does the same at every depth. -/
theorem executeAt_of_not_sys {i : Instr} (h : ∀ m, i ≠ .sys m) (n n' : Nat) : executeAt n i s = executeAt n' i s := by
  cases i <;> first | rfl | exact absurd rfl (h _)

/-- A 0NNN chain ends in a word of another kind, executed in its place, or in one of four faults. -/
theorem sysAt_cases (n : Nat) (nnn : Addr) :
    (∃ j, (∀ m, j ≠ .sys m) ∧ sysAt n nnn s = executeAt 0 j s) ∨
    ∃ k, sysAt n nnn s = .error k ∧
      (k = .refused ∨ k = .sysDepthExceeded ∨ k = .outOfBoundsAddress ∨ k = .invalidOpcode) := by
  induction n generalizing nnn with
  | zero => exact .inr ⟨_, rfl, by split <;> simp⟩
  | succ n ih =>
    simp only [sysAt]
    split
    · exact .inr ⟨_, rfl, .inl rfl⟩
    · cases h : instrAt s nnn.toNat with
      | ok i =>
        by_cases hi : ∃ m, i = .sys m
        · obtain ⟨m, rfl⟩ := hi
          exact ih m
        · push Not at hi
          exact .inl ⟨i, hi, executeAt_of_not_sys s hi n 0⟩
      | error k =>
        refine .inr ⟨k, rfl, ?_⟩
        simp only [instrAt, wordAt] at h
        split at h
        · next h' => split at h' <;> simp_all
        · split at h <;> simp_all

/-- The same for any instruction. -/
theorem executeAt_cases (n : Nat) (i : Instr) :
    (∃ j, (∀ m, j ≠ .sys m) ∧ executeAt n i s = executeAt 0 j s) ∨
    ∃ k, executeAt n i s = .error k ∧
      (k = .refused ∨ k = .sysDepthExceeded ∨ k = .outOfBoundsAddress ∨ k = .invalidOpcode) := by
  by_cases hi : ∃ m, i = .sys m
  · obtain ⟨m, rfl⟩ := hi
    exact sysAt_cases s n m
  · push Not at hi
    exact .inl ⟨i, hi, executeAt_of_not_sys s hi n 0⟩

/-! ## Registers -/

@[simp] theorem State.readV_writeV (x k : Reg) (b : Byte) :
    (s.writeV x b).readV k = if k = x then b else s.readV k := by
  simp only [State.readV, State.writeV, Vector.getElem_set, BitVec.toNat_inj, eq_comm]

@[simp] theorem State.readV_writeResult (x k : Reg) (r : Byte) (g : Bool) :
    (s.writeResult x r g).readV k = if k = regF then flagByte g else if k = x then r else s.readV k := by
  simp [State.writeResult]

/-- A register reads the same in states with the same V. -/
theorem State.readV_congr (k : Reg) (h : t.v = s.v) : t.readV k = s.readV k := by simp [State.readV, h]

/-! ## Memory ranges -/

/-- A byte reads the same in states with the same memory and configuration. -/
theorem State.memByte_congr (a : Nat) (hm : t.mem = s.mem) (hc : t.cfg = s.cfg) : t.memByte a = s.memByte a := by
  simp [State.memByte, hm, hc]

theorem inSpace_iff (a n : Nat) : inSpace a n = true ↔ n = 0 ∨ a + n ≤ 4096 := by simp [inSpace]

@[simp] theorem State.length_bytesAt (a n : Nat) : (s.bytesAt a n).length = n := by
  induction n generalizing a with
  | zero => rfl
  | succ n ih => simp [State.bytesAt, ih]

@[simp] theorem State.getElem_bytesAt (a n k : Nat) (h : k < (s.bytesAt a n).length) :
    (s.bytesAt a n)[k] = s.memByte (a + k) := by
  induction n generalizing a k with
  | zero => simp at h
  | succ n ih =>
    cases k with
    | zero => simp [State.bytesAt]
    | succ k => simp only [State.bytesAt, List.getElem_cons_succ, ih]; congr 1; omega

@[simp] theorem State.bytesAt_advance (a n : Nat) : s.advance.bytesAt a n = s.bytesAt a n := by
  induction n generalizing a with
  | zero => rfl
  | succ n ih => simp [State.bytesAt, ih]

/-- A checked read answers the bytes, or OutOfBoundsAddress. -/
theorem State.memRead_eq (a n : Nat) :
    s.memRead a n = if n = 0 ∨ a + n ≤ 4096 then .ok (s.bytesAt a n) else .error .outOfBoundsAddress := by
  simp only [State.memRead, inSpace_iff]

/-- A checked write answers a state in which only memory is new, or OutOfBoundsAddress. -/
theorem State.memWrite_eq (a : Nat) (bs : List Byte) :
    s.memWrite a bs =
      if bs.length = 0 ∨ a + bs.length ≤ 4096 then .ok (s.setMem (Memory.writeBytes s.cfg s.mem a bs))
      else .error .outOfBoundsAddress := by
  simp only [State.memWrite, inSpace_iff]

/-- What a byte reads as in a state whose memory is another's with consecutive bytes written. -/
theorem State.memByte_of_writeBytes (a a' : Nat) (bs : List Byte)
    (hm : t.mem = Memory.writeBytes s.cfg s.mem a bs) (hc : t.cfg = s.cfg) :
    t.memByte a' = if h : a ≤ a' ∧ a' - a < bs.length then bs[a' - a]'h.2 else s.memByte a' := by
  simp only [State.memByte, hm, hc, Memory.read_writeBytes]

/-- The checked word read answers the big-endian word, or OutOfBoundsAddress. -/
theorem wordAt_eq (a : Nat) :
    wordAt s a = if a + 2 ≤ 4096 then .ok (wordOfBytes (s.memByte a) (s.memByte (a + 1)))
      else .error .outOfBoundsAddress := by
  simp only [wordAt, inSpace_iff, OfNat.ofNat_ne_zero, false_or]

/-- What `instrAt` answers where a word can be read. -/
theorem instrAt_of_wordAt {a : Nat} {w : Word} (h : wordAt s a = .ok w) :
    instrAt s a = match decode w with
      | .ok i => .ok i
      | .error _ => .error .invalidOpcode := by
  unfold instrAt
  cases hd : decode w <;> simp only [h, hd]

/-! ## Register blocks -/

@[simp] theorem length_registerBlock (v : Vector Byte 16) (x : Reg) : (registerBlock v x).length = x.toNat + 1 := by
  have := x.isLt
  simp [registerBlock]; omega

@[simp] theorem getElem_registerBlock (v : Vector Byte 16) (x : Reg) (k : Nat) (h : k < (registerBlock v x).length) :
    (registerBlock v x)[k] = v[k]'(by have := x.isLt; simp at h; omega) := by
  simp [registerBlock]

theorem getElem_loadBlock (bs : List Byte) (a k : Nat) (v : Vector Byte 16) (hk : k < 16) :
    (loadBlock bs a v)[k] = if h : a ≤ k ∧ k - a < bs.length then bs[k - a]'h.2 else v[k] := by
  induction bs generalizing a v with
  | nil => simp [loadBlock]
  | cons b bs ih =>
    rw [loadBlock, ih]
    rcases Nat.lt_trichotomy k a with h | h | h
    · rw [dif_neg (by omega), dif_neg (by omega), Vector.getElem_setIfInBounds_ne _ (by omega)]
    · subst h; simp
    · have e : k - a = (k - (a + 1)) + 1 := by omega
      by_cases hl : k - (a + 1) < bs.length
      · rw [dif_pos ⟨by omega, hl⟩, dif_pos ⟨by omega, by simp; omega⟩]
        simp [e]
      · rw [dif_neg (by omega), dif_neg (by simp; omega), Vector.getElem_setIfInBounds_ne _ (by omega)]

/-! ## Stack -/

theorem State.push_eq (w : Word) :
    s.push w = if s.cfg.stackDepth ≤ s.sp then .error .stackOverflow else .ok (s.setStack (w :: s.stack)) := rfl

theorem State.popToPc_cons {w : Word} {rest : List Word} (h : s.stack = w :: rest) :
    s.popToPc = .ok ((s.setStack rest).setPc w) := by simp [State.popToPc, h]

theorem State.popToPc_nil (h : s.stack = []) : s.popToPc = .error .emptyStackUnderflow := by
  simp [State.popToPc, h]

/-! ## Keys -/

theorem mem_releasedKeys (p q : Keys) (k : Nat) :
    k ∈ releasedKeys p q ↔ k < 16 ∧ p.getLsbD k = true ∧ q.getLsbD k = false := by
  simp [releasedKeys, keyDown]

/-- The key picked is one of those released. -/
theorem pickKey_mem (r : List Nat) (n : Nat) (h : r ≠ []) : pickKey r n ∈ r := by
  have hl : n % r.length < r.length := Nat.mod_lt _ (List.length_pos_iff.mpr h)
  simp [pickKey, List.getD_eq_getElem?_getD, List.getElem?_eq_getElem hl]

/-! ## The frame -/

theorem tick_toNat (b : Byte) : (tick b).toNat = b.toNat - 1 := by
  unfold tick
  split
  · next h => simp [h]
  · next h => bv_omega

/-- A FRAME of a running core: keys, timers and frame-local counters are new, everything else stands. -/
theorem beginFrame_running (keys : Keys) (h : s.halted = false) :
    beginFrame keys s = { s with
      prevKey := s.key, key := keys, dt := tick s.dt, st := tick s.st
      inFrame := true, executed := 0, frameOver := false } := by
  simp [beginFrame, h]

theorem beginFrame_halted (keys : Keys) (h : s.halted = true) : beginFrame keys s = s := by
  simp [beginFrame, h]

theorem openFrame_running (h : s.halted = false) :
    openFrame s = beginFrame (Config.freeKeys s.freeCount) s.drawFree := by
  simp [openFrame, h]

theorem openFrame_halted (h : s.halted = true) : openFrame s = s := by
  simp [openFrame, h]

/-- Everything a step can do. -/
theorem step_cases (h : step s = .next t) :
    (s.inFrame = false ∧ t = openFrame s) ∨
    (s.inFrame = true ∧ frameGoesOn s = false ∧ t = endFrame s) ∨
    (s.inFrame = true ∧ frameGoesOn s = true ∧
      ((∃ i u, fetchInstr s = .ok i ∧ exec i s = .next u ∧ t = countStep u) ∨
        ∃ k, fetchInstr s = .error k ∧ t = countStep (s.enterFault k))) := by
  unfold step at h
  split at h
  · next hf =>
    split at h
    · next hg =>
      refine .inr (.inr ⟨hf, hg, ?_⟩)
      unfold instructionStep at h
      cases hi : fetchInstr s with
      | error k => rw [hi] at h; simp only [counted, Host.Outcome.next.injEq] at h; exact .inr ⟨k, rfl, h.symm⟩
      | ok i =>
        rw [hi] at h
        cases he : exec i s with
        | next u =>
          simp only [he, counted, Host.Outcome.next.injEq] at h
          exact .inl ⟨i, u, rfl, he, h.symm⟩
        | fault k => simp [he, counted] at h
        | refused r => simp [he, counted] at h
    · next hg =>
      simp only [Host.Outcome.next.injEq] at h
      exact .inr (.inl ⟨hf, by simpa using hg, h.symm⟩)
  · next hf =>
    simp only [Host.Outcome.next.injEq] at h
    exact .inl ⟨by simpa using hf, h.symm⟩

end Sys2Proof.Machine
end

