-- ==== Sys2Proof/Laws/PerInstr.lean ====
section
/-! SUPPORT. Per-instruction facts about the syntax, one lemma per constructor: the instruction's word has the top
nibble that 30_encoding.md R96's map gives the row. -/

namespace Sys2Proof.Laws.TopNibble

/-- The digit in front of the row's pattern in R96's map. -/
def digit : Instr → Nibble
  | .cls | .ret | .sys _ => 0x0
  | .jp _ => 0x1
  | .call _ => 0x2
  | .seVxNn _ _ => 0x3
  | .sneVxNn _ _ => 0x4
  | .seVxVy _ _ => 0x5
  | .ldVxNn _ _ => 0x6
  | .addVxNn _ _ => 0x7
  | .ldVxVy _ _ | .orVxVy _ _ | .andVxVy _ _ | .xorVxVy _ _ | .addVxVy _ _ | .subVxVy _ _ | .shrVxVy _ _
  | .subnVxVy _ _ | .shlVxVy _ _ => 0x8
  | .sneVxVy _ _ => 0x9
  | .ldINnn _ => 0xA
  | .jpV0Nnn _ => 0xB
  | .rndVxNn _ _ => 0xC
  | .drwVxVyN _ _ _ => 0xD
  | .skpVx _ | .sknpVx _ => 0xE
  | .ldVxDt _ | .ldVxK _ | .ldDtVx _ | .ldStVx _ | .addIVx _ | .ldFVx _ | .ldBVx _ | .ldMemVx _
  | .ldVxMem _ => 0xF

/-- The instruction's word starts with that digit. -/
def Statement (i : Instr) : Prop := fieldTop (encode i) = digit i

theorem fieldTop_formNNN (t : Nibble) (nnn : Addr) : fieldTop (formNNN t nnn) = t := by
  simp only [fieldTop, formNNN]; exact BitVec.extractLsb'_append_eq_left

theorem fieldTop_formXNN (t : Nibble) (x : Reg) (nn : Byte) : fieldTop (formXNN t x nn) = t := by
  apply BitVec.eq_of_toNat_eq
  have h1 := t.isLt; have h2 := x.isLt; have h3 := nn.isLt
  simp only [fieldTop, formXNN, BitVec.extractLsb'_toNat, BitVec.toNat_append, Nat.shiftRight_eq_div_pow,
    Nat.shiftLeft_eq, ← Nat.two_pow_add_eq_or_of_lt h2, ← Nat.two_pow_add_eq_or_of_lt h3, Nat.mul_comm _ (2 ^ _)]
  omega

theorem fieldTop_formXYN (t : Nibble) (x y : Reg) (n : Nibble) : fieldTop (formXYN t x y n) = t :=
  fieldTop_formXNN t x (y ++ n)

theorem cls : Statement .cls := rfl
theorem ret : Statement .ret := rfl
theorem sys (nnn : Addr) : Statement (.sys nnn) := fieldTop_formNNN _ _
theorem jp (nnn : Addr) : Statement (.jp nnn) := fieldTop_formNNN _ _
theorem call (nnn : Addr) : Statement (.call nnn) := fieldTop_formNNN _ _
theorem seVxNn (x : Reg) (nn : Byte) : Statement (.seVxNn x nn) := fieldTop_formXNN _ _ _
theorem sneVxNn (x : Reg) (nn : Byte) : Statement (.sneVxNn x nn) := fieldTop_formXNN _ _ _
theorem seVxVy (x y : Reg) : Statement (.seVxVy x y) := fieldTop_formXYN _ _ _ _
theorem ldVxNn (x : Reg) (nn : Byte) : Statement (.ldVxNn x nn) := fieldTop_formXNN _ _ _
theorem addVxNn (x : Reg) (nn : Byte) : Statement (.addVxNn x nn) := fieldTop_formXNN _ _ _
theorem ldVxVy (x y : Reg) : Statement (.ldVxVy x y) := fieldTop_formXYN _ _ _ _
theorem orVxVy (x y : Reg) : Statement (.orVxVy x y) := fieldTop_formXYN _ _ _ _
theorem andVxVy (x y : Reg) : Statement (.andVxVy x y) := fieldTop_formXYN _ _ _ _
theorem xorVxVy (x y : Reg) : Statement (.xorVxVy x y) := fieldTop_formXYN _ _ _ _
theorem addVxVy (x y : Reg) : Statement (.addVxVy x y) := fieldTop_formXYN _ _ _ _
theorem subVxVy (x y : Reg) : Statement (.subVxVy x y) := fieldTop_formXYN _ _ _ _
theorem shrVxVy (x y : Reg) : Statement (.shrVxVy x y) := fieldTop_formXYN _ _ _ _
theorem subnVxVy (x y : Reg) : Statement (.subnVxVy x y) := fieldTop_formXYN _ _ _ _
theorem shlVxVy (x y : Reg) : Statement (.shlVxVy x y) := fieldTop_formXYN _ _ _ _
theorem sneVxVy (x y : Reg) : Statement (.sneVxVy x y) := fieldTop_formXYN _ _ _ _
theorem ldINnn (nnn : Addr) : Statement (.ldINnn nnn) := fieldTop_formNNN _ _
theorem jpV0Nnn (nnn : Addr) : Statement (.jpV0Nnn nnn) := fieldTop_formNNN _ _
theorem rndVxNn (x : Reg) (nn : Byte) : Statement (.rndVxNn x nn) := fieldTop_formXNN _ _ _
theorem drwVxVyN (x y : Reg) (n : Nibble) : Statement (.drwVxVyN x y n) := fieldTop_formXYN _ _ _ _
theorem skpVx (x : Reg) : Statement (.skpVx x) := fieldTop_formXNN _ _ _
theorem sknpVx (x : Reg) : Statement (.sknpVx x) := fieldTop_formXNN _ _ _
theorem ldVxDt (x : Reg) : Statement (.ldVxDt x) := fieldTop_formXNN _ _ _
theorem ldVxK (x : Reg) : Statement (.ldVxK x) := fieldTop_formXNN _ _ _
theorem ldDtVx (x : Reg) : Statement (.ldDtVx x) := fieldTop_formXNN _ _ _
theorem ldStVx (x : Reg) : Statement (.ldStVx x) := fieldTop_formXNN _ _ _
theorem addIVx (x : Reg) : Statement (.addIVx x) := fieldTop_formXNN _ _ _
theorem ldFVx (x : Reg) : Statement (.ldFVx x) := fieldTop_formXNN _ _ _
theorem ldBVx (x : Reg) : Statement (.ldBVx x) := fieldTop_formXNN _ _ _
theorem ldMemVx (x : Reg) : Statement (.ldMemVx x) := fieldTop_formXNN _ _ _
theorem ldVxMem (x : Reg) : Statement (.ldVxMem x) := fieldTop_formXNN _ _ _

end Sys2Proof.Laws.TopNibble
end

