-- ==== Sys2Proof/Laws/Screen.lean ====
section
/-! SUPPORT. The display: cells after a clear and after an inversion, and what drawing a bit, a row and a whole sprite
does to every cell and to the collision bit. -/

namespace Sys2Proof.Machine

@[simp] theorem Display.cell_clear (x y : Nat) : Display.cell Display.clear x y = false := by
  simp [Display.cell, Display.clear]

theorem Display.cell_outside (d : Display) (x y : Nat) (h : ¬(x < 64 ∧ y < 32)) : Display.cell d x y = false := by
  simp [Display.cell, h]

/-- Inverting a cell of the grid changes that cell alone. -/
theorem Display.cell_invert (d : Display) (x y x' y' : Nat) (h : x < 64 ∧ y < 32) :
    Display.cell (Display.invert d x y) x' y' =
      if x' = x ∧ y' = y then !Display.cell d x y else Display.cell d x' y' := by
  by_cases h' : x' < 64 ∧ y' < 32
  · by_cases hy : y' = y
    · subst hy
      by_cases hx : x' = x
      · subst hx; simp [Display.cell, Display.invert, h]
      · simp [Display.cell, Display.invert, h, h', hx, Ne.symm hx]
    · simp [Display.cell, Display.invert, h, h', hy, Ne.symm hy]
  · rw [Display.cell_outside _ _ _ h', Display.cell_outside _ _ _ h']
    rw [if_neg]
    rintro ⟨rfl, rfl⟩
    exact h' h

/-- Two displays with the same cells are the same. -/
theorem Display.ext_cell (d d' : Display) (h : ∀ x y, x < 64 → y < 32 → Display.cell d x y = Display.cell d' x y) :
    d = d' := by
  apply Vector.ext
  intro y hy
  apply Vector.ext
  intro x hx
  simpa [Display.cell, hx, hy] using h x y hx hy

/-- A set of cells is drawn: each of its cells is inverted, and the collision bit tells whether one of them was lit.
What one sprite bit, one row and a whole sprite do, for their own sets. -/
def Draws (cells : Nat → Nat → Prop) (p q : Canvas) : Prop :=
  (∀ x y, (cells x y → x < 64 ∧ y < 32 ∧ Display.cell q.1 x y = !Display.cell p.1 x y) ∧
    (¬cells x y → Display.cell q.1 x y = Display.cell p.1 x y)) ∧
  (q.2 = true ↔ p.2 = true ∨ ∃ x y, cells x y ∧ Display.cell p.1 x y = true)

theorem Draws.refl (p : Canvas) : Draws (fun _ _ => False) p p := by simp [Draws]

theorem Draws.congr {c c' : Nat → Nat → Prop} {p q : Canvas} (h : Draws c p q) (hc : ∀ x y, c' x y ↔ c x y) :
    Draws c' p q := by
  simpa only [Draws, hc] using h

/-- Drawing two sets without a common cell, one after the other, draws their union. -/
theorem Draws.trans {c c' : Nat → Nat → Prop} {p q r : Canvas} (h : Draws c p q) (h' : Draws c' q r)
    (hd : ∀ x y, c x y → ¬c' x y) : Draws (fun x y => c x y ∨ c' x y) p r := by
  refine ⟨fun x y => ⟨?_, ?_⟩, ?_⟩
  · rintro (hx | hx)
    · obtain ⟨a, b, e⟩ := (h.1 x y).1 hx
      exact ⟨a, b, by rw [(h'.1 x y).2 (hd x y hx), e]⟩
    · obtain ⟨a, b, e⟩ := (h'.1 x y).1 hx
      exact ⟨a, b, by rw [e, (h.1 x y).2 fun hx' => hd x y hx' hx]⟩
  · intro hx
    push Not at hx
    rw [(h'.1 x y).2 hx.2, (h.1 x y).2 hx.1]
  · rw [h'.2, h.2]
    constructor
    · rintro ((hp | ⟨x, y, hx, hl⟩) | ⟨x, y, hx, hl⟩)
      · exact .inl hp
      · exact .inr ⟨x, y, .inl hx, hl⟩
      · exact .inr ⟨x, y, .inr hx, by rw [← (h.1 x y).2 fun hx' => hd x y hx' hx]; exact hl⟩
    · rintro (hp | ⟨x, y, hx | hx, hl⟩)
      · exact .inl (.inl hp)
      · exact .inl (.inr ⟨x, y, hx, hl⟩)
      · exact .inr ⟨x, y, hx, by rw [(h.1 x y).2 fun hx' => hd x y hx' hx]; exact hl⟩

theorem drawBit_draws (x y : Nat) (b : Bool) (p : Canvas) :
    Draws (fun x' y' => b = true ∧ x < 64 ∧ y < 32 ∧ x' = x ∧ y' = y) p (drawBit x y b p) := by
  unfold drawBit
  split
  · next h =>
    simp only [Bool.and_eq_true, decide_eq_true_eq] at h
    obtain ⟨⟨hb, hx⟩, hy⟩ := h
    refine ⟨fun x' y' => ⟨?_, ?_⟩, ?_⟩
    · rintro ⟨-, -, -, rfl, rfl⟩
      exact ⟨hx, hy, by rw [Display.cell_invert _ _ _ _ _ ⟨hx, hy⟩]; simp⟩
    · intro hn
      rw [Display.cell_invert _ _ _ _ _ ⟨hx, hy⟩, if_neg]
      rintro ⟨rfl, rfl⟩
      exact hn ⟨hb, hx, hy, rfl, rfl⟩
    · simp [hb, hx, hy]
  · next h =>
    refine (Draws.refl p).congr fun x' y' => ?_
    simp only [Bool.and_eq_true, decide_eq_true_eq] at h
    tauto

theorem drawRow_draws (x0 y : Nat) (row : Byte) (p : Canvas) :
    Draws (fun x' y' => x' < 64 ∧ y < 32 ∧ y' = y ∧ x0 ≤ x' ∧ x' < x0 + 8 ∧ row.getLsbD (7 - (x' - x0)) = true) p
      (drawRow x0 y row p) := by
  have key : ∀ n, n ≤ 8 →
      Draws (fun x' y' => x' < 64 ∧ y < 32 ∧ y' = y ∧ x0 ≤ x' ∧ x' < x0 + n ∧ row.getLsbD (7 - (x' - x0)) = true) p
        ((List.range n).foldl (fun q c => drawBit (x0 + c) y (row.getLsbD (7 - c)) q) p) := by
    intro n hn
    induction n with
    | zero => exact (Draws.refl p).congr fun x' y' => by simp only [iff_false]; omega
    | succ n ih =>
      rw [List.range_succ, List.foldl_append]
      refine ((ih (by omega)).trans (drawBit_draws (x0 + n) y (row.getLsbD (7 - n)) _) ?_).congr ?_
      · rintro x' y' ⟨_, _, _, _, h, _⟩ ⟨_, _, _, h', _⟩
        omega
      · intro x' y'
        by_cases hx : x' = x0 + n
        · subst hx
          simp only [Nat.add_sub_cancel_left]
          constructor
          · rintro ⟨h1, h2, h3, _, _, h6⟩; exact .inr ⟨h6, h1, h2, trivial, h3⟩
          · rintro (⟨_, _, _, _, h5, _⟩ | ⟨h6, h1, h2, _, h3⟩)
            · omega
            · exact ⟨h1, h2, h3, by omega, by omega, h6⟩
        · constructor
          · rintro ⟨h1, h2, h3, h4, h5, h6⟩; exact .inl ⟨h1, h2, h3, h4, by omega, h6⟩
          · rintro (⟨h1, h2, h3, h4, h5, h6⟩ | ⟨_, _, _, h, _⟩)
            · exact ⟨h1, h2, h3, h4, by omega, h6⟩
            · exact absurd h hx
  exact key 8 (Nat.le_refl 8)

/-- What drawing a sprite's rows does: every unclipped cell under a set bit, and no other, is inverted. -/
theorem drawRows_draws (x0 y0 : Nat) (rows : List Byte) (p : Canvas) :
    Draws (fun x y => x < 64 ∧ y < 32 ∧ x0 ≤ x ∧ x < x0 + 8 ∧ y0 ≤ y ∧
      ∃ h : y - y0 < rows.length, (rows[y - y0]).getLsbD (7 - (x - x0)) = true) p (drawRows x0 y0 rows p) := by
  induction rows generalizing y0 p with
  | nil => exact (Draws.refl p).congr fun x y => by simp
  | cons row rows ih =>
    rw [drawRows]
    refine ((drawRow_draws x0 y0 row p).trans (ih (y0 + 1) _) ?_).congr ?_
    · rintro x y ⟨_, _, h, _⟩ ⟨_, _, _, _, h', _⟩
      omega
    · intro x y
      rcases Nat.lt_trichotomy y y0 with h | h | h
      · constructor
        · rintro ⟨_, _, _, _, h5, _⟩; omega
        · rintro (⟨_, _, h3, _⟩ | ⟨_, _, _, _, h5, _⟩) <;> omega
      · subst h
        simp only [Nat.sub_self, List.getElem_cons_zero, List.length_cons]
        constructor
        · rintro ⟨h1, h2, h3, h4, _, _, h6⟩; exact .inl ⟨h1, h2, trivial, h3, h4, h6⟩
        · rintro (⟨h1, h2, _, h3, h4, h6⟩ | ⟨_, _, _, _, h5, _⟩)
          · exact ⟨h1, h2, h3, h4, Nat.le_refl _, by omega, h6⟩
          · omega
      · obtain ⟨e, he⟩ : ∃ e, y = y0 + 1 + e := ⟨y - (y0 + 1), by omega⟩
        subst he
        have e1 : y0 + 1 + e - y0 = e + 1 := by omega
        have e2 : y0 + 1 + e - (y0 + 1) = e := by omega
        simp only [e1, e2, List.length_cons, List.getElem_cons_succ, Nat.add_lt_add_iff_right]
        constructor
        · rintro ⟨h1, h2, h3, h4, _, h6⟩; exact .inr ⟨h1, h2, h3, h4, by omega, h6⟩
        · rintro (⟨_, _, h, _⟩ | ⟨h1, h2, h3, h4, _, h6⟩)
          · omega
          · exact ⟨h1, h2, h3, h4, by omega, h6⟩

end Sys2Proof.Machine
end

