-- ==== Sys2Proof/Tests/Slice0.lean ====
section
/-! SUPPORT. The model's own tests: expected results are the spec's (95_test_vectors.md Part 1 and Part 2, and the
rules' own examples), each on one step of a small state; then one witness per statement that has hypotheses. -/

namespace Sys2Proof.Tests

open Sys2Proof.Machine

/-! ## Helpers -/

/-- What `f` sees of the next state. -/
def peek {α : Type} (o : Host.Outcome State Fault Refusal) (f : State → α) : Option α :=
  match o with
  | .next t => some (f t)
  | .fault _ => none
  | .refused _ => none

/-- The reset state with some registers set. -/
def regs (l : List (Reg × Byte)) (s : State) : State := l.foldl (fun t p => t.writeV p.1 p.2) s

/-- The reset state. -/
def r0 : State := State.reset

/-- Bytes put into memory from `a` on. -/
def bytes (a : Nat) (bs : List Byte) (s : State) : State := s.setMem (Memory.writeBytes s.cfg s.mem a bs)

/-- One step that fetches the word `w` at the pc. -/
def run (s : State) (w : Nat) : Host.Outcome State Fault Refusal := step (s.withFetchWord 16 w)

/-- I set. -/
def withI (n : Nat) (s : State) : State := s.writeI n

/-- Some parameters changed. -/
def withCfg (f : Config → Config) (s : State) : State := { s with cfg := f s.cfg }

/-- Key vectors set. -/
def withKeys (prev now : Keys) (s : State) : State := { s with prevKey := prev, key := now }

/-- The lit columns of a display row. -/
def rowBits (y : Nat) (d : Display) : List Nat := (List.range 64).filter fun x => Display.cell d x y

/-- Some cells inverted. -/
def lit (cells : List (Nat × Nat)) (s : State) : State :=
  s.setDisplay (cells.foldl (fun d c => Display.invert d c.1 c.2) s.display)

/-- What a fault leaves: pc, halted, the code. -/
def faultView (t : State) : Word × Bool × Nat := (t.pc, t.halted, t.faultCode)

/-! ## Well-formedness -/

theorem test_wf_refuses_sys_that_is_cls : (Instr.sys 0x0E0).wf = false := by decide
theorem test_wf_refuses_sys_that_is_ret : (Instr.sys 0x0EE).wf = false := by decide
theorem test_wf_accepts_sys : (Instr.sys 0x0E1).wf = true := by decide
theorem test_wf_accepts_draw : (Instr.drwVxVyN 0xF 0xF 0x0).wf = true := by decide

/-! ## Decoding: each word written out field by field from R93 and R96 -/

theorem test_decode_cls : decode 0b0000000011100000 = .ok .cls := rfl
theorem test_decode_ret : decode 0b0000000011101110 = .ok .ret := rfl
theorem test_decode_sys : decode 0b0000001100000000 = .ok (.sys 0x300) := rfl
theorem test_decode_jp : decode 0b0001001000101000 = .ok (.jp 0x228) := rfl
theorem test_decode_call : decode 0b0010001101000000 = .ok (.call 0x340) := rfl
theorem test_decode_seVxNn : decode 0b0011001100010000 = .ok (.seVxNn 0x3 0x10) := rfl
theorem test_decode_sneVxNn : decode 0b0100001100010001 = .ok (.sneVxNn 0x3 0x11) := rfl
theorem test_decode_seVxVy : decode 0b0101000100100000 = .ok (.seVxVy 0x1 0x2) := rfl
theorem test_decode_ldVxNn : decode 0b0110101001000010 = .ok (.ldVxNn 0xA 0x42) := rfl
theorem test_decode_addVxNn : decode 0b0111001011111111 = .ok (.addVxNn 0x2 0xFF) := rfl
theorem test_decode_ldVxVy : decode 0b1000000100100000 = .ok (.ldVxVy 0x1 0x2) := rfl
theorem test_decode_orVxVy : decode 0b1000000100100001 = .ok (.orVxVy 0x1 0x2) := rfl
theorem test_decode_andVxVy : decode 0b1000000100100010 = .ok (.andVxVy 0x1 0x2) := rfl
theorem test_decode_xorVxVy : decode 0b1000000100100011 = .ok (.xorVxVy 0x1 0x2) := rfl
theorem test_decode_addVxVy : decode 0b1000000100100100 = .ok (.addVxVy 0x1 0x2) := rfl
theorem test_decode_subVxVy : decode 0b1000000100100101 = .ok (.subVxVy 0x1 0x2) := rfl
theorem test_decode_shrVxVy : decode 0b1000000100100110 = .ok (.shrVxVy 0x1 0x2) := rfl
theorem test_decode_subnVxVy : decode 0b1000000100100111 = .ok (.subnVxVy 0x1 0x2) := rfl
theorem test_decode_shlVxVy : decode 0b1000000100101110 = .ok (.shlVxVy 0x1 0x2) := rfl
theorem test_decode_sneVxVy : decode 0b1001000100100000 = .ok (.sneVxVy 0x1 0x2) := rfl
theorem test_decode_ldINnn : decode 0b1010001011110000 = .ok (.ldINnn 0x2F0) := rfl
theorem test_decode_jpV0Nnn : decode 0b1011001100000000 = .ok (.jpV0Nnn 0x300) := rfl
theorem test_decode_rndVxNn : decode 0b1100001100001111 = .ok (.rndVxNn 0x3 0x0F) := rfl
theorem test_decode_drwVxVyN : decode 0b1101000100100101 = .ok (.drwVxVyN 0x1 0x2 0x5) := rfl
theorem test_decode_skpVx : decode 0b1110010010011110 = .ok (.skpVx 0x4) := rfl
theorem test_decode_sknpVx : decode 0b1110010010100001 = .ok (.sknpVx 0x4) := rfl
theorem test_decode_ldVxDt : decode 0b1111001100000111 = .ok (.ldVxDt 0x3) := rfl
theorem test_decode_ldVxK : decode 0b1111001000001010 = .ok (.ldVxK 0x2) := rfl
theorem test_decode_ldDtVx : decode 0b1111001100010101 = .ok (.ldDtVx 0x3) := rfl
theorem test_decode_ldStVx : decode 0b1111001100011000 = .ok (.ldStVx 0x3) := rfl
theorem test_decode_addIVx : decode 0b1111010100011110 = .ok (.addIVx 0x5) := rfl
theorem test_decode_ldFVx : decode 0b1111011100101001 = .ok (.ldFVx 0x7) := rfl
theorem test_decode_ldBVx : decode 0b1111101000110011 = .ok (.ldBVx 0xA) := rfl
theorem test_decode_ldMemVx : decode 0b1111001001010101 = .ok (.ldMemVx 0x2) := rfl
theorem test_decode_ldVxMem : decode 0b1111001001100101 = .ok (.ldVxMem 0x2) := rfl

/-- R97: 00E1 is 0NNN, not CLS (V34). -/
theorem test_decode_00E1_is_sys : decode 0x00E1 = .ok (.sys 0x0E1) := rfl

/-- R98, R99, R100, R101: words of R103 (V12, V13, V181, V154, V184). -/
theorem test_decode_rejects :
    [0x5121#16, 0x912F#16, 0x8128#16, 0xE49F#16, 0xFFFF#16].map decode =
      [0x5121#16, 0x912F#16, 0x8128#16, 0xE49F#16, 0xFFFF#16].map fun w => .error (.invalidOpcode w) := rfl

/-- R63, R92: the byte at the lower address is the high byte; two bytes are taken and the rest is left. -/
theorem test_decodeBytes_big_endian : decodeBytes [0x6A, 0x42, 0x99] = .ok (.ldVxNn 0xA 0x42, [0x99]) := rfl

/-- One byte is no instruction (R92). -/
theorem test_decodeBytes_truncated : decodeBytes [0x6A] = .error .truncated := rfl

/-- The table's word numbering is the opcode's own. -/
theorem test_decodeTableWord : decodeTableWord 16 0xD125 = some (.drwVxVyN 0x1 0x2 0x5) := rfl

/-! ## Reset and the frame -/

/-- R48, R271: pc = ENTRY = 0x200, V0 = 0, I = 0, SP = 0, not halted; glyph 0 of the font (V124). -/
theorem test_reset_values :
    (r0.pc, r0.readV 0, r0.i, r0.sp, r0.halted, r0.bytesAt 0 5) = (0x200, 0, 0, 0, false, [0xF0, 0x90, 0x90, 0x90, 0xF0]) := by
  decide

/-- R270: LOAD of the empty image is the reset state. -/
theorem test_load_empty_is_reset : load Config.standard [] = some r0 := by decide

/-- R240, V175: DT = 1 and ST = 5 become 0 and 4 before the first instruction. -/
theorem test_frame_start_ticks :
    peek (step ((r0.writeDt 1).writeSt 5)) (fun t => (t.dt, t.st, t.inFrame, t.pc)) = some (0, 4, true, 0x200) := by
  decide

/-- R240, V174: the floor. -/
theorem test_frame_start_floor : peek (step r0) (fun t => (t.dt, t.st)) = some (0, 0) := by decide

/-- R234, V176: a halted core takes nothing. -/
theorem test_halted_frame :
    peek (step ((r0.writeDt 5).enterFault .invalidOpcode)) (fun t => (t.dt, t.inFrame)) = some (5, false) := by
  decide

/-- R91, V2: a fetch at 0xFFF faults with code 3. -/
theorem test_fetch_at_the_edge : peek (run (r0.setPc 0xFFF) 0) faultView = some (0xFFF, true, 3) := by decide

/-- R103, V180: 5121 halts the core with code 1 at its own address. -/
theorem test_invalid_word_halts : peek (run r0 0x5121) faultView = some (0x200, true, 1) := by decide

/-! ## Control flow -/

/-- V19 -/
theorem test_ret : peek (run ((r0.setStack [0x202]).setPc 0x300) 0x00EE) (fun t => (t.pc, t.sp)) = some (0x202, 0) := by
  decide
/-- V20 -/
theorem test_ret_empty : peek (run r0 0x00EE) faultView = some (0x200, true, 4) := by decide
/-- V27: the nested 3XNN skips the word after the 0NNN. -/
theorem test_sys_skip : peek (run (bytes 0x300 [0x33, 0x2A] (regs [(3, 0x2A)] r0)) 0x0300) (·.pc) = some 0x204 := by
  decide
/-- V30: nesting into itself. -/
theorem test_sys_self : peek (run r0 0x0200) faultView = some (0x200, true, 6) := by decide
/-- V1 -/
theorem test_jp_to_self : peek (run (r0.setPc 0xFFE) 0x1FFE) (·.pc) = some 0xFFE := by decide
/-- V15 -/
theorem test_call : peek (run r0 0x2300) (fun t => (t.pc, t.sp, t.stackEntry 0)) = some (0x300, 1, 0x202) := by
  decide
/-- V16 -/
theorem test_call_full :
    peek (run (r0.setStack (List.replicate 16 0x202)) 0x2300) (fun t => (faultView t, t.sp)) =
      some ((0x200, true, 5), 16) := by decide
/-- V4 -/
theorem test_seVxNn : peek (run (regs [(3, 0x10)] r0) 0x3310) (·.pc) = some 0x204 := by decide
/-- V7 -/
theorem test_sneVxNn : peek (run (regs [(3, 0x10)] r0) 0x4311) (·.pc) = some 0x204 := by decide
/-- V8 -/
theorem test_seVxVy : peek (run (regs [(1, 7), (2, 7)] r0) 0x5120) (·.pc) = some 0x204 := by decide
/-- V10 -/
theorem test_sneVxVy : peek (run (regs [(1, 7), (2, 8)] r0) 0x9120) (·.pc) = some 0x204 := by decide
/-- V24: not masked. -/
theorem test_jpV0 : peek (run (regs [(0, 0xFF)] (r0.setPc 0x202)) 0xBFFF) (·.pc) = some 0x10FE := by decide

/-! ## Register/immediate and ALU -/

/-- V1 and VF after the word, from V1, V2 and VF. -/
def alu (w : Nat) (x y f : Byte) : Option (Byte × Byte) :=
  peek (run (regs [(1, x), (2, y), (0xF, f)] r0) w) fun t => (t.readV 1, t.readV 0xF)

/-- V40 -/
theorem test_ldVxNn : peek (run r0 0x6A42) (·.readV 0xA) = some 0x42 := by decide
/-- V42: wraps, VF kept. -/
theorem test_addVxNn :
    peek (run (regs [(2, 0xFF), (0xF, 5)] r0) 0x7202) (fun t => (t.readV 2, t.readV 0xF)) = some (1, 5) := by decide
/-- R152: the free byte under the mask. -/
theorem test_rndVxNn : peek (exec (.rndVxNn 3 0x0F) r0) (·.readV 3) = some (Config.freeRnd 0 &&& 0x0F) := rfl
/-- V50 -/
theorem test_ldVxVy : alu 0x8120 0x12 0x9C 0xAA = some (0x9C, 0xAA) := by decide
/-- V51 -/
theorem test_orVxVy : alu 0x8121 0x0F 0xF0 0xAA = some (0xFF, 0) := by decide
/-- V52 -/
theorem test_andVxVy : alu 0x8122 0x3C 0x0F 0xAA = some (0x0C, 0) := by decide
/-- V53 -/
theorem test_xorVxVy : alu 0x8123 0xFF 0x0F 0xAA = some (0xF0, 0) := by decide
/-- V55, V58: sums 256 and 255. -/
theorem test_addVxVy : (alu 0x8124 0xFF 1 0xAA, alu 0x8124 0x7F 0x80 0xAA) = (some (0, 1), some (0xFF, 0)) := by
  decide
/-- V79: the flag wins when X = F. -/
theorem test_addVxVy_into_VF : peek (run (regs [(2, 1), (0xF, 0xFF)] r0) 0x8F24) (·.readV 0xF) = some 1 := by
  decide
/-- V61, V62: borrow, and equal operands. -/
theorem test_subVxVy : (alu 0x8125 3 5 0xAA, alu 0x8125 7 7 0xAA) = (some (0xFE, 0), some (0, 1)) := by decide
/-- V70, V71: the old VX is ignored. -/
theorem test_shrVxVy : (alu 0x8126 0xFF 4 0xAA, alu 0x8126 0 1 0xAA) = (some (2, 0), some (0, 1)) := by decide
/-- V65, V66 -/
theorem test_subnVxVy : (alu 0x8127 3 5 0xAA, alu 0x8127 5 3 0xAA) = (some (2, 1), some (0xFE, 0)) := by decide
/-- V73, V75 -/
theorem test_shlVxVy : (alu 0x812E 0 0x81 0xAA, alu 0x812E 0xFF 0x7F 0xAA) = (some (2, 1), some (0xFE, 0)) := by
  decide

/-! ## Memory and index -/

/-- V101 -/
theorem test_ldINnn : peek (run r0 0xAFFF) (·.i) = some 0xFFF := by decide
/-- V104: masked to 12 bits. -/
theorem test_addIVx : peek (run (withI 0xFF0 (regs [(5, 0x20)] r0)) 0xF51E) (·.i) = some 0x010 := by decide
/-- V106: the high nibble is ignored. -/
theorem test_ldFVx : peek (run (regs [(7, 0x1A)] r0) 0xF729) (·.i) = some 0x032 := by decide
/-- V115 -/
theorem test_ldBVx : peek (run (withI 0xFFD (regs [(1, 0x7B)] r0)) 0xF133) (fun t => (t.bytesAt 0xFFD 3, t.i)) =
    some ([1, 2, 3], 0xFFD) := by decide
/-- V116: no byte is written. -/
theorem test_ldBVx_outside : peek (run (withI 0xFFE (regs [(1, 0x7B)] r0)) 0xF133) (fun t => (faultView t, t.bytesAt 0xFFE 2)) =
    some ((0x200, true, 3), [0, 0]) := by decide
/-- V117 -/
theorem test_ldMemVx : peek (run (withI 0x300 (regs [(0, 0x11), (1, 0x22), (2, 0x33)] r0)) 0xF255)
    (fun t => (t.bytesAt 0x300 4, t.i)) = some ([0x11, 0x22, 0x33, 0], 0x303) := by decide
/-- V125: INDEX_ADVANCE = false. -/
theorem test_ldMemVx_keeps_I : peek (run (withCfg (fun c => { c with indexAdvance := false }) (withI 0x300 r0)) 0xF255)
    (·.i) = some 0x300 := by decide
/-- V124: glyph 0 of the font. -/
theorem test_ldVxMem : peek (run r0 0xF465) (fun t => ([0, 1, 2, 3, 4, 5].map t.readV, t.i)) =
    some ([0xF0, 0x90, 0x90, 0x90, 0xF0, 0], 0x005) := by decide
/-- V123 -/
theorem test_ldVxMem_outside : peek (run (withI 0xFFF r0) 0xF165) (fun t => (faultView t, t.i)) =
    some ((0x200, true, 3), 0xFFF) := by decide

/-! ## Display -/

/-- V130 -/
theorem test_cls : peek (run (lit [(3, 4), (63, 31)] r0) 0x00E0) (fun t => (decide (t.display = Display.clear), t.frameOver)) =
    some (true, false) := by decide
/-- V136: cells 2 and 3 turn off. -/
theorem test_drw_collision :
    peek (run (bytes 0x300 [0xF0] (withI 0x300 (regs [(0, 2)] (lit [(0, 0), (1, 0), (2, 0), (3, 0)] r0)))) 0xD011)
      (fun t => (rowBits 0 t.display, t.readV 0xF, t.frameOver)) = some ([0, 1, 4, 5], 1, true) := by decide
/-- V135 and V133: the start wraps, the rest is clipped. -/
theorem test_drw_wraps_then_clips :
    (peek (run (bytes 0x300 [0xC0] (withI 0x300 (regs [(0, 0x43), (1, 0x21)] r0))) 0xD011) fun t => rowBits 1 t.display,
     peek (run (bytes 0x300 [0xFF] (withI 0x300 (regs [(0, 0x3C)] r0))) 0xD011) fun t => rowBits 0 t.display) =
    (some [3, 4], some [60, 61, 62, 63]) := by decide

/-! ## Input and timers -/

/-- V150 -/
theorem test_skpVx : peek (run (withKeys 0 0x0080 (regs [(4, 0x17)] r0)) 0xE49E) (·.pc) = some 0x204 := by decide
/-- V153 -/
theorem test_sknpVx : peek (run (regs [(4, 7)] r0) 0xE4A1) (·.pc) = some 0x204 := by decide
/-- V157: a held key is no release. -/
theorem test_ldVxK_waits : peek (run (withKeys 0x0020 0x0020 r0) 0xF20A) (fun t => (t.pc, t.frameOver)) =
    some (0x200, true) := by decide
/-- V170 -/
theorem test_ldVxDt : peek (run (r0.writeDt 0x3C) 0xF307) (·.readV 3) = some 0x3C := by decide
/-- V171 -/
theorem test_ldDtVx : peek (run (regs [(3, 0x3C)] r0) 0xF315) (·.dt) = some 0x3C := by decide
/-- V172 -/
theorem test_ldStVx : peek (run (regs [(3, 2)] r0) 0xF318) (fun t => (t.st, t.soundActive)) = some (2, true) := by
  decide

/-! ## Witnesses: for each statement with hypotheses, states and operands that meet them, at the values where its
clauses meet -/

/-- A word stored at 0x300. -/
def at300 (w : Word) : State := bytes 0x300 (bytesOfWord w) r0

/-- Inside a frame that goes on, before a word at `pc`. -/
def ready (pc w : Nat) : State := (r0.setPc (BitVec.ofNat 16 pc)).withFetchWord 16 w

/-- The premise shared by the statements about a frame that goes on. -/
abbrev goesOn (s : State) : Prop :=
  s.inFrame = true ∧ s.executed < s.cfg.ipf ∧ s.frameOver = false ∧ s.halted = false

theorem test_witness_DecodeOfEncode : (Instr.sys 0xFFF).wf = true ∧ (Instr.ldVxMem 0xF).wf = true := by decide

theorem test_witness_EncodeOfDecode : decode 0xFF65 = .ok (.ldVxMem 0xF) ∧ decode 0x0FFF = .ok (.sys 0xFFF) :=
  ⟨rfl, rfl⟩

theorem test_witness_TopNibbleZeroNeverInvalid :
    wordAt (at300 (formNNN 0x0 0x0E0)) 0x300 = .ok (formNNN 0x0 0x0E0) ∧
    wordAt (at300 (formNNN 0x0 0x0EE)) 0x300 = .ok (formNNN 0x0 0x0EE) ∧
    wordAt (at300 (formNNN 0x0 0xFFF)) 0x300 = .ok (formNNN 0x0 0xFFF) := ⟨rfl, rfl, rfl⟩

theorem test_witness_TopNibbleEightBySubNibble :
    ∀ n ∈ [0x0#4, 0x1#4, 0x2#4, 0x3#4, 0x4#4, 0x5#4, 0x6#4, 0x7#4, 0xE#4, 0x8#4, 0xD#4, 0xF#4],
      (wordAt (at300 (formXYN 0x8 0xF 0x0 n)) 0x300).toOption = some (formXYN 0x8 0xF 0x0 n) := by decide

theorem test_witness_TopNibblesEAndFByLowByte :
    (∀ nn ∈ [0x9E#8, 0xA1#8, 0x9F#8], (wordAt (at300 (formXNN 0xE 0xF nn)) 0x300).toOption = some (formXNN 0xE 0xF nn)) ∧
    (∀ nn ∈ [0x07#8, 0x0A#8, 0x15#8, 0x18#8, 0x1E#8, 0x29#8, 0x33#8, 0x55#8, 0x65#8, 0x66#8],
      (wordAt (at300 (formXNN 0xF 0x0 nn)) 0x300).toOption = some (formXNN 0xF 0x0 nn)) := by decide

theorem test_witness_FirstLevelDispatch :
    (∀ t ∈ [0x1#4, 0x2#4, 0xA#4, 0xB#4],
      (wordAt (at300 (formNNN t 0xFFF)) 0x300).toOption = some (formNNN t 0xFFF)) ∧
    (∀ t ∈ [0x3#4, 0x4#4, 0x6#4, 0x7#4, 0xC#4],
      (wordAt (at300 (formXNN t 0xF 0xFF)) 0x300).toOption = some (formXNN t 0xF 0xFF)) ∧
    (∀ t ∈ [0x5#4, 0x9#4, 0xD#4], ∀ n ∈ [0x0#4, 0x1#4],
      (wordAt (at300 (formXYN t 0x0 0xF n)) 0x300).toOption = some (formXYN t 0x0 0xF n)) := by decide

/-- The last word of memory is fetched (V1). -/
theorem test_witness_StepRunsTheFetchedInstruction :
    goesOn (ready 0xFFE 0x1FFE) ∧ (ready 0xFFE 0x1FFE).pc.toNat + 1 ≤ 0xFFF ∧
    decode (wordOfBytes ((ready 0xFFE 0x1FFE).memByte 0xFFE) ((ready 0xFFE 0x1FFE).memByte 0xFFF)) =
      .ok (.jp 0xFFE) ∧ ∃ t, exec (.jp 0xFFE) (ready 0xFFE 0x1FFE) = .next t := ⟨by decide, by decide, rfl, _, rfl⟩

theorem test_witness_FetchOutsideSpaceFaults :
    goesOn (ready 0xFFF 0) ∧ 0xFFF < (ready 0xFFF 0).pc.toNat + 1 ∧
    goesOn (ready 0x10FE 0) ∧ 0xFFF < (ready 0x10FE 0).pc.toNat + 1 := by decide

theorem test_witness_InvalidWordsHaltTheCore :
    goesOn (ready 0xFFE 0x8128) ∧ wordAt (ready 0xFFE 0x8128) (ready 0xFFE 0x8128).pc.toNat = .ok 0x8128 ∧
    decode 0x8128 = .error (.invalidOpcode 0x8128) := ⟨by decide, rfl, rfl⟩

theorem test_witness_FrameStartSnapshotsKeysAndCountsDown : r0.inFrame = false ∧ r0.halted = false := by decide

theorem test_witness_FrameReturnsWhenLoopEnds :
    ((ready 0x200 0).inFrame = true ∧
      (Nat.iterate countStep 10 (ready 0x200 0)).cfg.ipf ≤ (Nat.iterate countStep 10 (ready 0x200 0)).executed) ∧
    (ready 0x200 0).endFrameEarly.frameOver = true ∧ (ready 0x200 0).endFrameEarly.inFrame = true ∧
    ((ready 0x200 0).enterFault .refused).halted = true ∧ ((ready 0x200 0).enterFault .refused).inFrame = true := by decide

theorem test_witness_HaltedFrameChangesNothing :
    (r0.enterFault .stackOverflow).halted = true ∧ (r0.enterFault .stackOverflow).inFrame = false := by decide

theorem test_witness_StepsCarryOutFrame : r0.inFrame = false ∧ r0.halted = false := by decide

theorem test_witness_FrameSpendsAtMostItsBudget : r0.halted = false := by decide

/-- The invariant holds at reset, and a step runs from there. -/
theorem test_witness_StepKeepsTheInvariant : r0.Inv ∧ ∃ t, step r0 = .next t := by
  refine ⟨⟨by decide, ⟨List.Pairwise.nil, by decide⟩, by decide, by decide, by decide,
    fun _ h => absurd h List.not_mem_nil, by decide, by decide, by decide, by decide⟩, _, rfl⟩

/-- An image of 4096 - ENTRY bytes fits, one byte more does not, and neither does any at a smaller space. -/
theorem test_witness_LoadBuildsTheFreshState :
    Config.standard.wf ∧ [0x12#8, 0x00#8].length ≤ 4096 - Config.standard.entry.toNat ∧
    (List.replicate 3584 0#8).length ≤ 4096 - Config.standard.entry.toNat ∧
    4096 - Config.standard.entry.toNat < (List.replicate 3585 0#8).length := by
  refine ⟨by decide, by decide, ?_, ?_⟩ <;> rw [List.length_replicate] <;> decide

theorem test_witness_StepKeepsTheConfiguration : ∃ t, step r0 = .next t := ⟨_, rfl⟩

theorem test_witness_InvalidRegisterIsNeverRaised :
    (∃ t, step (ready 0xFFF 0) = .next t) ∧ (ready 0xFFF 0).faultKind ≠ some .invalidRegister := ⟨⟨_, rfl⟩, by decide⟩

theorem test_witness_HaltedIsFinal :
    (r0.enterFault .refused).halted = true ∧ ∃ t, step (r0.enterFault .refused) = .next t := ⟨rfl, _, rfl⟩

/-- RET with an empty stack. -/
theorem test_witness_FaultsArePrecise :
    r0.halted = false ∧ ∃ t, exec .ret r0 = .next t ∧ t.halted = true := ⟨rfl, _, rfl, rfl⟩

/-- Each faulting instruction at the last state without its fault and the first with it. -/
theorem test_witness_WhichInstructionsFault :
    (ownFault r0 .ret = some .emptyStackUnderflow ∧ ownFault (r0.setStack [0x202]) .ret = none) ∧
    (ownFault (r0.setStack (List.replicate 16 0)) (.call 0) = some .stackOverflow ∧
      ownFault (r0.setStack (List.replicate 15 0)) (.call 0) = none) ∧
    (ownFault (withI 0xFFF r0) (.drwVxVyN 0 0 2) = some .outOfBoundsAddress ∧
      ownFault (withI 0xFFF r0) (.drwVxVyN 0 0 1) = none ∧ ownFault (withI 0xFFF r0) (.drwVxVyN 0 0 0) = none) ∧
    (ownFault (withI 0xFFE r0) (.ldBVx 0) = some .outOfBoundsAddress ∧ ownFault (withI 0xFFD r0) (.ldBVx 0) = none) ∧
    (ownFault (withI 0xFF1 r0) (.ldMemVx 0xF) = some .outOfBoundsAddress ∧
      ownFault (withI 0xFF0 r0) (.ldMemVx 0xF) = none) ∧
    (ownFault (withI 0xFFF r0) (.ldVxMem 1) = some .outOfBoundsAddress ∧
      ownFault (withI 0xFFF r0) (.ldVxMem 0) = none) := by decide

theorem test_witness_InstructionsChangeOnlyWhatTheyWrite :
    ((∀ nnn, Instr.ret ≠ .sys nnn) ∧ (∃ t, exec .ret r0 = .next t) ∧ ownFault r0 .ret ≠ none) ∧
    ((∃ t, exec (.ldMemVx 0) (withI 0xFFF r0) = .next t) ∧ ownFault (withI 0xFFF r0) (.ldMemVx 0) = none) :=
  ⟨⟨by simp, ⟨_, rfl⟩, by decide⟩, ⟨_, rfl⟩, by decide⟩

theorem test_witness_NoInstructionWritesTheKeys : ∃ t, exec (.sys 0x300) r0 = .next t := ⟨_, rfl⟩

/-- A draw, and a wait without a released key. -/
theorem test_witness_OnlyDrawAndWaitEndTheFrame :
    r0.frameOver = false ∧ (∃ t, exec (.drwVxVyN 0 1 0) r0 = .next t ∧ t.frameOver = true) ∧
    ∃ t, exec (.ldVxK 0) r0 = .next t ∧ t.frameOver = true := ⟨rfl, ⟨_, rfl, rfl⟩, _, rfl, rfl⟩

theorem test_witness_ReturnPopsTheStack : (r0.setStack [0x202, 0x1000]).stack = 0x202 :: [0x1000] ∧ r0.sp = 0 := by decide

/-- One below the capacity, and at it, for STACK_DEPTH 12 and 16 (V16, V17). -/
theorem test_witness_CallPushesTheReturnAddress :
    (r0.setStack (List.replicate 15 0)).sp < r0.cfg.stackDepth ∧ r0.cfg.stackDepth ≤ (r0.setStack (List.replicate 16 0)).sp ∧
    (withCfg (fun c => { c with stackDepth := 12 }) r0).cfg.stackDepth ≤ (r0.setStack (List.replicate 12 0)).sp := by decide

theorem test_witness_CallThenReturnComesBack :
    r0.sp < r0.cfg.stackDepth ∧ ∃ t u : State, exec (.call 0x300) r0 = .next t ∧ u.stack = t.stack ∧ u ≠ t :=
  ⟨by decide, _, regs [(0, 1)] (r0.setStack [0x202]), rfl, rfl, by decide⟩

/-- A stored word at the last address a 0NNN can read. -/
theorem test_witness_SysRunsTheStoredInstruction :
    (bytes 0xFFE [0x60, 0x2A] r0).cfg.sysMode = .execAt ∧ 1 ≤ (bytes 0xFFE [0x60, 0x2A] r0).cfg.sysDepthMax ∧
    (0xFFE#12).toNat < 0xFFF ∧
    decode (wordOfBytes ((bytes 0xFFE [0x60, 0x2A] r0).memByte 0xFFE) ((bytes 0xFFE [0x60, 0x2A] r0).memByte 0xFFF)) =
      .ok (.ldVxNn 0 0x2A) ∧ (∀ m, Instr.ldVxNn 0 0x2A ≠ .sys m) ∧
    ownFault (bytes 0xFFE [0x60, 0x2A] r0) (.ldVxNn 0 0x2A) = none :=
  ⟨by decide, by decide, by decide, rfl, by simp, by decide⟩

/-- A chain of two words ends in 6XNN; the chain of a 0NNN into itself, into 0xFFF and into an invalid word (V29-V31). -/
theorem test_witness_SysFollowsTheChain :
    r0.cfg.sysMode = .execAt ∧
    chainResult 16 (bytes 0x302 [0x60, 0x2A] (bytes 0x300 [0x03, 0x02] r0)) 0x300 = .ok (.ldVxNn 0 0x2A) ∧
    chainResult 1 (bytes 0x302 [0x60, 0x2A] (bytes 0x300 [0x03, 0x02] r0)) 0x300 = .error .sysDepthExceeded ∧
    chainResult 16 (at300 0x0300) 0x300 = .error .sysDepthExceeded ∧
    chainResult 16 r0 0xFFF = .error .outOfBoundsAddress ∧ chainResult 16 r0 0x000 = .error .invalidOpcode :=
  ⟨rfl, rfl, rfl, rfl, rfl, rfl⟩

theorem test_witness_SysFaults :
    (withCfg (fun c => { c with sysMode := .refuse }) r0).cfg.sysMode = .refuse ∧
    (r0.cfg.sysMode = .execAt ∧ 1 ≤ r0.cfg.sysDepthMax) ∧
    (wordAt r0 0 = .ok 0xF090 ∧ decode 0xF090 = .error (.invalidOpcode 0xF090)) ∧
    (wordAt (at300 0x0300) 0x300 = .ok 0x0300 ∧ decode 0x0300 = .ok (.sys 0x300)) :=
  ⟨rfl, ⟨rfl, by decide⟩, ⟨rfl, rfl⟩, rfl, rfl⟩

theorem test_witness_SysModesExclude : SysMode.refuse ≠ .execAt := by decide

theorem test_witness_SkipsTestTheirCondition :
    (regs [(3, 0x10)] r0).readV 3 = 0x10 ∧ (regs [(3, 0x10)] r0).readV 3 ≠ 0x11 ∧
    (regs [(3, 0x10)] r0).readV 3 ≠ (regs [(3, 0x10)] r0).readV 4 := by decide

theorem test_witness_StoreDecimalDigits :
    (withI 0xFFD r0).i.toNat + 2 ≤ 0xFFF ∧ 0xFFF < (withI 0xFFE r0).i.toNat + 2 := by decide

theorem test_witness_StoreRegisterBlock :
    (withI 0xFF0 r0).i.toNat + (0xF#4).toNat ≤ 0xFFF ∧ 0xFFF < (withI 0xFF1 r0).i.toNat + (0xF#4).toNat ∧
    (withI 0xFFF r0).i.toNat + (0x0#4).toNat ≤ 0xFFF ∧ r0.cfg.indexAdvance = true ∧
    (withCfg (fun c => { c with indexAdvance := false }) r0).cfg.indexAdvance = false := by decide

theorem test_witness_LoadRegisterBlock :
    (withI 0xFFF r0).i.toNat + (0x0#4).toNat ≤ 0xFFF ∧ 0xFFF < (withI 0xFFF r0).i.toNat + (0x1#4).toNat ∧
    r0.cfg.indexAdvance = true ∧ (withCfg (fun c => { c with indexAdvance := false }) r0).cfg.indexAdvance = false := by
  decide

/-- The state after FF55 with I set back is a state to load in. -/
theorem test_witness_StoreThenLoadGivesTheRegistersBack :
    (withI 0xFF0 r0).i.toNat + (0xF#4).toNat ≤ 0xFFF ∧
    ∃ t u : State, exec (.ldMemVx 0xF) (withI 0xFF0 r0) = .next t ∧ u.mem = t.mem ∧ u.cfg = t.cfg ∧ u.i = (withI 0xFF0 r0).i :=
  ⟨by decide, _, withI 0xFF0 r0, rfl, rfl, rfl, rfl⟩

/-- F155 at 0x200 with I = 0x202. -/
theorem test_witness_StoredWordIsFetchedNext :
    1 ≤ (0x1#4).toNat ∧ (withI 0x202 r0).i.toNat + (0x1#4).toNat ≤ 0xFFF ∧ (withI 0x202 r0).pc + 2 = (withI 0x202 r0).i ∧
    ∃ t, exec (.ldMemVx 1) (withI 0x202 (regs [(0, 0x12), (1, 0x02)] r0)) = .next t :=
  ⟨by decide, by decide, by decide, _, rfl⟩

/-- N = 0, a sprite that ends on the last byte, and one that ends past it (V139-V141). -/
theorem test_witness_DrawInvertsTheCoveredCells :
    (0x0#4).toNat = 0 ∧ (withI 0xFFF r0).i.toNat + (0x1#4).toNat - 1 ≤ 0xFFF ∧
    (0x2#4).toNat ≠ 0 ∧ 0xFFF < (withI 0xFFF r0).i.toNat + (0x2#4).toNat - 1 := by decide

theorem test_witness_DrawingTwiceRestoresTheDisplay :
    (0x0#4) ≠ 0xF ∧ (0x1#4) ≠ 0xF ∧ r0.i.toNat + (0x5#4).toNat - 1 ≤ 0xFFF ∧
    ∃ t, exec (.drwVxVyN 0 1 5) r0 = .next t := ⟨by decide, by decide, by decide, _, rfl⟩

/-- Key 15 released, and no key released while key 15 is held. -/
theorem test_witness_KeyWaitNeedsAReleasedKey :
    (15 < 16 ∧ (withKeys 0x8000 0 r0).prevKey.getLsbD 15 = true ∧ (withKeys 0x8000 0 r0).key.getLsbD 15 = false) ∧
    (∀ k, k < 16 → (withKeys 0x8000 0x8000 r0).prevKey.getLsbD k = true →
      (withKeys 0x8000 0x8000 r0).key.getLsbD k = true) := by decide

end Sys2Proof.Tests
end

section
/-! What an instruction may change: one frame rule per update of the state, then the parts `writes` lists for every
instruction but 0NNN, and what is left of a state by any instruction. From these, only a fault halts the core. -/

namespace Sys2Proof.Machine

/-! ## Frame rules: updating a part that may change does not matter -/

section FrameRules

variable {ps : List Part} {s t : State}

@[simp] theorem changesOnly_refl : changesOnly ps s s := by
  intro p _
  cases p <;> simp [Part.same]

@[simp] theorem changesOnly_writeV_iff (x : Reg) (b : Byte) (h : .v ∈ ps) :
    changesOnly ps s (t.writeV x b) ↔ changesOnly ps s t :=
  forall₂_congr fun p hp => by cases p <;> simp_all [Part.same]

@[simp] theorem changesOnly_setV_iff (w : Vector Byte 16) (h : .v ∈ ps) :
    changesOnly ps s (t.setV w) ↔ changesOnly ps s t :=
  forall₂_congr fun p hp => by cases p <;> simp_all [Part.same]

@[simp] theorem changesOnly_writeI_iff (n : Nat) (h : .i ∈ ps) :
    changesOnly ps s (t.writeI n) ↔ changesOnly ps s t :=
  forall₂_congr fun p hp => by cases p <;> simp_all [Part.same]

@[simp] theorem changesOnly_setPc_iff (w : Word) (h : .pc ∈ ps) :
    changesOnly ps s (t.setPc w) ↔ changesOnly ps s t :=
  forall₂_congr fun p hp => by cases p <;> simp_all [Part.same]

@[simp] theorem changesOnly_advance_iff (h : .pc ∈ ps) :
    changesOnly ps s t.advance ↔ changesOnly ps s t :=
  forall₂_congr fun p hp => by cases p <;> simp_all [Part.same]

@[simp] theorem changesOnly_rewind_iff (h : .pc ∈ ps) :
    changesOnly ps s t.rewind ↔ changesOnly ps s t :=
  forall₂_congr fun p hp => by cases p <;> simp_all [Part.same]

@[simp] theorem changesOnly_skipIf_iff (c : Bool) (h : .pc ∈ ps) :
    changesOnly ps s (t.skipIf c) ↔ changesOnly ps s t :=
  forall₂_congr fun p hp => by cases p <;> simp_all [Part.same]

@[simp] theorem changesOnly_setStack_iff (ws : List Word) (h : .stack ∈ ps) :
    changesOnly ps s (t.setStack ws) ↔ changesOnly ps s t :=
  forall₂_congr fun p hp => by cases p <;> simp_all [Part.same]

@[simp] theorem changesOnly_writeDt_iff (b : Byte) (h : .dt ∈ ps) :
    changesOnly ps s (t.writeDt b) ↔ changesOnly ps s t :=
  forall₂_congr fun p hp => by cases p <;> simp_all [Part.same]

@[simp] theorem changesOnly_writeSt_iff (b : Byte) (h : .st ∈ ps) :
    changesOnly ps s (t.writeSt b) ↔ changesOnly ps s t :=
  forall₂_congr fun p hp => by cases p <;> simp_all [Part.same]

@[simp] theorem changesOnly_setMem_iff (m : Memory) (h : .mem ∈ ps) :
    changesOnly ps s (t.setMem m) ↔ changesOnly ps s t :=
  forall₂_congr fun p hp => by cases p <;> simp_all [Part.same]

@[simp] theorem changesOnly_setDisplay_iff (d : Display) (h : .display ∈ ps) :
    changesOnly ps s (t.setDisplay d) ↔ changesOnly ps s t :=
  forall₂_congr fun p hp => by cases p <;> simp_all [Part.same]

@[simp] theorem changesOnly_endFrameEarly_iff (h : .frameOver ∈ ps) :
    changesOnly ps s t.endFrameEarly ↔ changesOnly ps s t :=
  forall₂_congr fun p hp => by cases p <;> simp_all [Part.same]

@[simp] theorem changesOnly_drawFree_iff (h : .freeCount ∈ ps) :
    changesOnly ps s t.drawFree ↔ changesOnly ps s t :=
  forall₂_congr fun p hp => by cases p <;> simp_all [Part.same]

@[simp] theorem changesOnly_advanceIndex_iff (x : Reg) (h : .i ∈ ps) :
    changesOnly ps s (t.advanceIndex x) ↔ changesOnly ps s t :=
  forall₂_congr fun p hp => by cases p <;> simp_all [Part.same]

end FrameRules

/-! ## What the checked operations answer when they do not fault -/

theorem State.push_eq_ok {s t : State} {w : Word} (h : s.push w = .ok t) : t = s.setStack (w :: s.stack) := by
  rw [State.push_eq] at h
  split at h
  · cases h
  · exact (Except.ok.inj h).symm

theorem State.popToPc_eq_ok {s t : State} (h : s.popToPc = .ok t) :
    ∃ w rest, s.stack = w :: rest ∧ t = (s.setStack rest).setPc w := by
  cases hs : s.stack with
  | nil => cases (s.popToPc_nil hs).symm.trans h
  | cons w rest => exact ⟨w, rest, rfl, (Except.ok.inj ((s.popToPc_cons hs).symm.trans h)).symm⟩

theorem State.memWrite_eq_ok {s t : State} {a : Nat} {bs : List Byte} (h : s.memWrite a bs = .ok t) :
    t = s.setMem (Memory.writeBytes s.cfg s.mem a bs) := by
  rw [State.memWrite_eq] at h
  split at h
  · exact (Except.ok.inj h).symm
  · cases h

/-! ## Instructions -/

/-- The frame of every instruction but 0NNN. -/
theorem executeAt_changesOnly_writes {n : Nat} {i : Instr} {s t : State} (hi : ∀ m, i ≠ .sys m)
    (h : executeAt n i s.advance = .ok t) : changesOnly (writes i) s t := by
  cases i with
  | sys m => exact absurd rfl (hi m)
  | ret =>
    obtain ⟨w, rest, -, rfl⟩ := State.popToPc_eq_ok h
    simp [writes]
  | call nnn =>
    simp only [executeAt, effectOf, callEffect] at h
    cases hp : s.advance.push s.advance.pc with
    | error k => simp only [hp, reduceCtorEq] at h
    | ok u =>
      simp only [hp, Except.ok.injEq] at h
      simp [← h, State.push_eq_ok hp, writes]
  | drwVxVyN x y k =>
    simp only [executeAt, effectOf, drwVxVyNEffect] at h
    split at h
    · cases h
    · simp [← Except.ok.inj h, writes]
  | ldVxK x =>
    simp only [executeAt, effectOf, ldVxKEffect] at h
    split at h <;> simp [← Except.ok.inj h, writes]
  | ldBVx x => simp [State.memWrite_eq_ok h, writes]
  | ldMemVx x =>
    simp only [executeAt, effectOf, ldMemVxEffect] at h
    split at h
    · next u hu => simp [← Except.ok.inj h, State.memWrite_eq_ok hu, writes]
    · cases h
  | ldVxMem x =>
    simp only [executeAt, effectOf, ldVxMemEffect] at h
    split at h
    · simp [← Except.ok.inj h, writes]
    · cases h
  | _ =>
    -- The pseudocode of the others answers `.ok` of updates by its definition.
    obtain rfl := Except.ok.inj h
    simp [writes, State.writeResult]

/-- What an instruction leaves, 0NNN included: what one of the other instructions may change, or the fault's state. -/
theorem exec_changesOnly_or_enterFault {i : Instr} {s t : State} (h : exec i s = .next t) :
    (∃ j, (∀ m, j ≠ .sys m) ∧ changesOnly (writes j) s t) ∨ ∃ k, t = s.enterFault k := by
  rcases (exec_eq_next s t i).mp h with hok | ⟨k, -, ht⟩
  · left
    rcases executeAt_cases s.advance s.cfg.sysDepthMax i with ⟨j, hj, he⟩ | ⟨k, he, -⟩
    · exact ⟨j, hj, executeAt_changesOnly_writes hj (he.symm.trans hok)⟩
    · cases he.symm.trans hok
  · exact .inr ⟨k, ht⟩

theorem halted_not_mem_writes (i : Instr) : .halted ∉ writes i := by
  cases i <;> simp [writes]

/-- Settles O24: a completed instruction keeps `halted`, so one that halts a running core has entered a fault. -/
theorem faultsArePrecise : Obligations.FaultsArePrecise := by
  intro i s t hrun h hhalt
  rcases exec_changesOnly_or_enterFault h with ⟨j, -, hframe⟩ | hfault
  · have hkept : t.halted = s.halted := hframe .halted (halted_not_mem_writes j)
    simp [hkept, hrun] at hhalt
  · exact hfault

end Sys2Proof.Machine
end

section
/-! The state's invariant (10_state.md). First what instructions and steps leave in the parts that no instruction
writes, and which faults they raise; then the invariant as a rule per update, per instruction and per step. -/

namespace Sys2Proof.Machine

/-! ## Faults: an instruction but 0NNN raises exactly its own fault, and nothing raises InvalidRegister -/

@[simp] theorem State.advance_sp (s : State) : s.advance.sp = s.sp := rfl

theorem State.popToPc_eq_error_iff {s : State} {k : Fault} :
    s.popToPc = .error k ↔ s.sp = 0 ∧ .emptyStackUnderflow = k := by
  cases hs : s.stack with
  | nil => simp [State.popToPc_nil s hs, State.sp, hs]
  | cons w rest => simp [State.popToPc_cons s hs, State.sp, hs]

theorem State.push_eq_error_iff {s : State} {w : Word} {k : Fault} :
    s.push w = .error k ↔ s.cfg.stackDepth ≤ s.sp ∧ .stackOverflow = k := by
  rw [State.push_eq]
  split <;> simp_all

theorem State.memRead_eq_error_iff {s : State} {a n : Nat} {k : Fault} :
    s.memRead a n = .error k ↔ (0 < n ∧ 0xFFF < a + n - 1) ∧ .outOfBoundsAddress = k := by
  rw [State.memRead_eq]
  split
  · simp; omega
  · simp; omega

theorem State.memWrite_eq_error_iff {s : State} {a : Nat} {bs : List Byte} {k : Fault} :
    s.memWrite a bs = .error k ↔ (0 < bs.length ∧ 0xFFF < a + bs.length - 1) ∧ .outOfBoundsAddress = k := by
  rw [State.memWrite_eq]
  split
  · simp; omega
  · simp; omega

theorem callEffect_eq_error_iff {nnn : Addr} {s : State} {k : Fault} :
    callEffect nnn s = .error k ↔ s.push s.pc = .error k := by
  unfold callEffect
  cases s.push s.pc <;> simp

theorem drwVxVyNEffect_eq_error_iff {x y : Reg} {m : Nibble} {s : State} {k : Fault} :
    drwVxVyNEffect x y m s = .error k ↔ s.memRead s.i.toNat m.toNat = .error k := by
  unfold drwVxVyNEffect
  cases s.memRead s.i.toNat m.toNat <;> simp

theorem ldMemVxEffect_eq_error_iff {x : Reg} {s : State} {k : Fault} :
    ldMemVxEffect x s = .error k ↔ s.memWrite s.i.toNat (registerBlock s.v x) = .error k := by
  unfold ldMemVxEffect
  cases s.memWrite s.i.toNat (registerBlock s.v x) <;> simp

theorem ldVxMemEffect_eq_error_iff {x : Reg} {s : State} {k : Fault} :
    ldVxMemEffect x s = .error k ↔ s.memRead s.i.toNat (x.toNat + 1) = .error k := by
  unfold ldVxMemEffect
  cases s.memRead s.i.toNat (x.toNat + 1) <;> simp

theorem ldVxKEffect_ne_error (x : Reg) (s : State) (k : Fault) : ldVxKEffect x s ≠ .error k := by
  unfold ldVxKEffect
  cases releasedKeys s.prevKey s.key <;> simp

/-- R231, 0NNN apart: the pseudocode raises `ownFault` and no other fault. -/
theorem executeAt_eq_error_iff_ownFault {n : Nat} {i : Instr} {s : State} {k : Fault} (hi : ∀ m, i ≠ .sys m) :
    executeAt n i s.advance = .error k ↔ ownFault s i = some k := by
  cases i with
  | sys m => exact absurd rfl (hi m)
  | ret => exact State.popToPc_eq_error_iff.trans (by simp [ownFault])
  | call nnn =>
    exact (callEffect_eq_error_iff.trans State.push_eq_error_iff).trans (by simp [ownFault])
  | drwVxVyN x y m =>
    exact (drwVxVyNEffect_eq_error_iff.trans State.memRead_eq_error_iff).trans (by simp [ownFault])
  | ldBVx x => exact State.memWrite_eq_error_iff.trans (by simp [ownFault, decimalDigits])
  | ldMemVx x =>
    exact (ldMemVxEffect_eq_error_iff.trans State.memWrite_eq_error_iff).trans (by simp [ownFault])
  | ldVxMem x =>
    exact (ldVxMemEffect_eq_error_iff.trans State.memRead_eq_error_iff).trans (by simp [ownFault])
  | ldVxK x => exact iff_of_false (ldVxKEffect_ne_error x _ k) nofun
  | _ => exact iff_of_false nofun nofun

theorem ownFault_ne_invalidRegister (s : State) (i : Instr) : ownFault s i ≠ some .invalidRegister := by
  cases i <;> simp [ownFault]

/-- R23: no rule raises InvalidRegister, 0NNN included. -/
theorem executeAt_ne_invalidRegister (n : Nat) (i : Instr) (s : State) :
    executeAt n i s.advance ≠ .error .invalidRegister := by
  rcases executeAt_cases s.advance n i with ⟨j, hj, he⟩ | ⟨k, he, hk⟩
  · rw [he, ne_eq, executeAt_eq_error_iff_ownFault hj]
    exact ownFault_ne_invalidRegister s j
  · rw [he]
    rintro ⟨⟩
    simp at hk

theorem wordAt_eq_error {s : State} {a : Nat} {k : Fault} (h : wordAt s a = .error k) : k = .outOfBoundsAddress := by
  rw [wordAt_eq] at h
  split at h
  · cases h
  · exact (Except.error.inj h).symm

theorem instrAt_eq_error {s : State} {a : Nat} {k : Fault} (h : instrAt s a = .error k) :
    k = .outOfBoundsAddress ∨ k = .invalidOpcode := by
  unfold instrAt at h
  split at h
  · next k' hword =>
    obtain rfl := Except.error.inj h
    exact .inl (wordAt_eq_error hword)
  · split at h
    · cases h
    · exact .inr (Except.error.inj h).symm

theorem add_two_le_of_instrAt_eq_ok {s : State} {a : Nat} {i : Instr} (h : instrAt s a = .ok i) : a + 2 ≤ 4096 := by
  by_contra hout
  simp [instrAt, wordAt_eq, hout] at h

/-! ## Parts that no completed instruction changes -/

theorem changesOnly_enterFault (s : State) (k : Fault) : changesOnly [.halted, .faultKind] s (s.enterFault k) := by
  intro p hp
  cases p <;> simp_all [Part.same]

theorem changesOnly_endFrame (s : State) : changesOnly [.inFrame, .executed, .frameOver] s (endFrame s) := by
  intro p hp
  cases p <;> simp_all [Part.same]

theorem changesOnly_openFrame (s : State) :
    changesOnly [.prevKey, .key, .dt, .st, .inFrame, .executed, .frameOver, .freeCount] s (openFrame s) := by
  cases hh : s.halted with
  | true => simp [openFrame_halted s hh]
  | false =>
    rw [openFrame_running s hh, beginFrame_running _ _ (by simpa using hh)]
    intro p hp
    cases p <;> simp_all [Part.same, State.readV, State.memByte]

/-- The parts of the state that no completed instruction changes. -/
def untouched : List Part := [.key, .prevKey, .halted, .faultKind, .inFrame, .executed, .cfg]

theorem not_mem_writes_of_mem_untouched (i : Instr) {p : Part} (hp : p ∈ untouched) : p ∉ writes i := by
  cases i <;> revert p <;> simp [untouched, writes]

/-- Everything any instruction can do, 0NNN included: the pseudocode of one that is no 0NNN completes, or a fault
other than InvalidRegister is entered. -/
theorem exec_cases {i : Instr} {s t : State} (h : exec i s = .next t) :
    (∃ j, (∀ m, j ≠ .sys m) ∧ executeAt 0 j s.advance = .ok t) ∨
    ∃ k, k ≠ .invalidRegister ∧ t = s.enterFault k := by
  rcases (exec_eq_next s t i).mp h with hok | ⟨k, herr, rfl⟩
  · rcases executeAt_cases s.advance s.cfg.sysDepthMax i with ⟨j, hj, he⟩ | ⟨k, he, -⟩
    · exact .inl ⟨j, hj, he.symm.trans hok⟩
    · cases he.symm.trans hok
  · exact .inr ⟨k, fun hk => executeAt_ne_invalidRegister _ _ _ (hk ▸ herr), rfl⟩

theorem executeAt_keeps_untouched {n : Nat} {i : Instr} {s t : State} (hi : ∀ m, i ≠ .sys m)
    (h : executeAt n i s.advance = .ok t) {p : Part} (hp : p ∈ untouched) : p.same s t :=
  executeAt_changesOnly_writes hi h p (not_mem_writes_of_mem_untouched i hp)

/-! ## The clauses of the invariant that an instruction's pseudocode has to keep -/

/-- The clauses of `State.Inv` about parts that instructions write, in terms of these parts. -/
structure InRange (c : Config) (mem : Memory) (i pc : Word) (stack : List Word) : Prop where
  memWf : Memory.wf c mem
  indexBound : i.toNat < 4096
  pcBound : pc.toNat ≤ 0x10FE
  spBound : stack.length ≤ c.stackDepth
  entryBound : ∀ w ∈ stack, w.toNat ≤ 0x1000

/-- These clauses of a state. An update of any other part leaves them as they are, by definition. -/
abbrev State.InRange (s : State) : Prop := Machine.InRange s.cfg s.mem s.i s.pc s.stack

theorem State.Inv.inRange {s : State} (h : s.Inv) : s.InRange :=
  ⟨h.memWf, h.indexBound, h.pcBound, h.spBound, h.entryBound⟩

section InRangeRules

variable {s t : State}

theorem State.InRange.setPc (h : s.InRange) {w : Word} (hw : w.toNat ≤ 0x10FE) : (s.setPc w).InRange :=
  { h with pcBound := hw }

theorem State.InRange.advance (h : s.InRange) (hpc : s.pc.toNat ≤ 0x1000) : s.advance.InRange :=
  { h with pcBound := by rw [State.advance_pc]; bv_omega }

theorem State.InRange.skipIf (h : s.InRange) (hpc : s.pc.toNat ≤ 0x1000) (c : Bool) : (s.skipIf c).InRange := by
  cases c with
  | false => exact h
  | true => exact h.advance hpc

theorem State.InRange.rewind (h : s.InRange) (hpc : 2 ≤ s.pc.toNat) : s.rewind.InRange :=
  { h with pcBound := by have := h.pcBound; rw [State.rewind_pc]; bv_omega }

theorem State.InRange.writeI (h : s.InRange) (n : Nat) : (s.writeI n).InRange :=
  { h with indexBound := by simp; omega }

theorem State.InRange.advanceIndex (h : s.InRange) (x : Reg) : (s.advanceIndex x).InRange := by
  unfold State.advanceIndex
  split
  · exact h.writeI _
  · exact h

theorem State.InRange.push (h : s.InRange) {w : Word} (hw : w.toNat ≤ 0x1000) (hp : s.push w = .ok t) :
    t.InRange := by
  rw [State.push_eq] at hp
  split at hp
  · cases hp
  · next hroom =>
    obtain rfl := Except.ok.inj hp
    exact { h with
      spBound := by simpa [State.sp] using hroom
      entryBound := List.forall_mem_cons.mpr ⟨hw, h.entryBound⟩ }

theorem State.InRange.popToPc (h : s.InRange) (hp : s.popToPc = .ok t) : t.InRange := by
  obtain ⟨w, rest, hs, rfl⟩ := State.popToPc_eq_ok hp
  have hentries := h.entryBound
  have hsp := h.spBound
  simp only [hs, List.forall_mem_cons, List.length_cons] at hentries hsp
  exact { h with
    pcBound := hentries.1.trans (by decide)
    spBound := Nat.le_of_succ_le hsp
    entryBound := hentries.2 }

theorem State.InRange.memWrite (h : s.InRange) {a : Nat} {bs : List Byte} (hw : s.memWrite a bs = .ok t) :
    t.InRange := by
  rw [State.memWrite_eq] at hw
  split at hw
  · next hfits =>
    obtain rfl := Except.ok.inj hw
    rcases hfits with hnone | hfits
    · obtain rfl := List.eq_nil_of_length_eq_zero hnone
      exact h
    · exact { h with memWf := Memory.wf_writeBytes _ _ _ _ hfits h.memWf }
  · cases hw

end InRangeRules

/-- R25, R29, R32: the pseudocode keeps the ranges, on a state with the pc just advanced past a fetched word. -/
theorem executeAt_inRange {n : Nat} {i : Instr} {s t : State} (hi : ∀ m, i ≠ .sys m) (hs : s.InRange)
    (hlo : 2 ≤ s.pc.toNat) (hhi : s.pc.toNat ≤ 0x1000) (h : executeAt n i s = .ok t) : t.InRange := by
  cases i with
  | sys m => exact absurd rfl (hi m)
  | ret => exact hs.popToPc h
  | jp nnn =>
    obtain rfl := Except.ok.inj h
    exact hs.setPc (by simp only [jumpTarget]; bv_omega)
  | jpV0Nnn nnn =>
    obtain rfl := Except.ok.inj h
    exact hs.setPc (by simp only [indexedTarget]; bv_omega)
  | call nnn =>
    simp only [executeAt, effectOf, callEffect] at h
    split at h
    · next u hpush =>
      obtain rfl := Except.ok.inj h
      exact (hs.push hhi hpush).setPc (by simp only [jumpTarget]; bv_omega)
    · cases h
  | seVxNn | sneVxNn | seVxVy | sneVxVy | skpVx | sknpVx =>
    obtain rfl := Except.ok.inj h
    exact hs.skipIf hhi _
  | ldINnn | addIVx | ldFVx =>
    obtain rfl := Except.ok.inj h
    exact hs.writeI _
  | drwVxVyN x y m =>
    simp only [executeAt, effectOf, drwVxVyNEffect] at h
    split at h
    · cases h
    · obtain rfl := Except.ok.inj h
      exact hs
  | ldVxK x =>
    simp only [executeAt, effectOf, ldVxKEffect] at h
    split at h
    · obtain rfl := Except.ok.inj h
      exact hs.rewind hlo
    · obtain rfl := Except.ok.inj h
      exact hs
  | ldBVx x => exact hs.memWrite h
  | ldMemVx x =>
    simp only [executeAt, effectOf, ldMemVxEffect] at h
    split at h
    · next u hwrite =>
      obtain rfl := Except.ok.inj h
      exact (hs.memWrite hwrite).advanceIndex x
    · cases h
  | ldVxMem x =>
    simp only [executeAt, effectOf, ldVxMemEffect] at h
    split at h
    · next bs hread =>
      obtain rfl := Except.ok.inj h
      exact State.InRange.advanceIndex (s := s.setV (loadBlock bs 0 s.v)) hs x
    · cases h
  | _ =>
    -- The others write none of these parts.
    obtain rfl := Except.ok.inj h
    exact hs

/-! ## Steps -/

theorem frameGoesOn_iff {s : State} :
    frameGoesOn s = true ↔ s.executed < s.cfg.ipf ∧ s.frameOver = false ∧ s.halted = false := by
  simp [frameGoesOn, and_assoc]

/-- Everything a step can do, with what an instruction step leaves before it is counted: the parts no instruction
writes and the ranges are kept, or a fault other than InvalidRegister has been entered. -/
theorem step_outcomes {s t : State} (h : step s = .next t) :
    (s.inFrame = false ∧ t = openFrame s) ∨
    (s.inFrame = true ∧ t = endFrame s) ∨
    (s.inFrame = true ∧ s.executed < s.cfg.ipf ∧ s.halted = false ∧ ∃ u, t = countStep u ∧
      (((∀ p ∈ untouched, p.same s u) ∧ (s.InRange → u.InRange)) ∨
        ∃ k, k ≠ .invalidRegister ∧ u = s.enterFault k)) := by
  rcases step_cases s t h with hopen | ⟨hf, -, rfl⟩ | ⟨hf, hgo, hrun⟩
  · exact .inl hopen
  · exact .inr (.inl ⟨hf, rfl⟩)
  · obtain ⟨hbudget, -, hhalt⟩ := frameGoesOn_iff.mp hgo
    refine .inr (.inr ⟨hf, hbudget, hhalt, ?_⟩)
    rcases hrun with ⟨i, u, hfetch, hexec, rfl⟩ | ⟨k, hfetch, rfl⟩
    · refine ⟨u, rfl, ?_⟩
      rcases exec_cases hexec with ⟨j, hj, hok⟩ | hfault
      · refine .inl ⟨fun p hp => executeAt_keeps_untouched hj hok hp, fun hs => ?_⟩
        have hpc := add_two_le_of_instrAt_eq_ok hfetch
        have hpc' : s.advance.pc.toNat = s.pc.toNat + 2 := by rw [State.advance_pc]; bv_omega
        exact executeAt_inRange hj (hs.advance (by omega)) (by omega) (by omega) hok
      · exact .inr hfault
    · refine ⟨_, rfl, .inr ⟨k, ?_, rfl⟩⟩
      rcases instrAt_eq_error hfetch with rfl | rfl <;> simp

/-- Settles O20: the configuration is one of the parts that no instruction changes. -/
theorem stepKeepsTheConfiguration : Obligations.StepKeepsTheConfiguration := by
  intro s t h
  rcases step_outcomes h with ⟨-, rfl⟩ | ⟨-, rfl⟩ | ⟨-, -, -, u, rfl, ⟨hkept, -⟩ | ⟨k, -, rfl⟩⟩
  · exact changesOnly_openFrame s .cfg (by decide)
  · exact endFrame_cfg s
  · exact hkept .cfg (by decide)
  · rfl

/-- Settles O22: a step keeps the recorded kind or records the kind of a fault that some rule raises. -/
theorem invalidRegisterIsNeverRaised : Obligations.InvalidRegisterIsNeverRaised := by
  intro s t h hs
  rcases step_outcomes h with ⟨-, rfl⟩ | ⟨-, rfl⟩ | ⟨-, -, -, u, rfl, ⟨hkept, -⟩ | ⟨k, hk, rfl⟩⟩
  · have hkind : (openFrame s).faultKind = s.faultKind := changesOnly_openFrame s .faultKind (by decide)
    rwa [hkind]
  · exact hs
  · have hkind : u.faultKind = s.faultKind := hkept .faultKind (by decide)
    rwa [countStep_faultKind, hkind]
  · simpa using hk

/-- Settles O23: a halted core runs no instruction, so the step returns from a FRAME or does nothing. -/
theorem haltedIsFinal : Obligations.HaltedIsFinal := by
  intro s t hs h
  rcases step_outcomes h with ⟨-, rfl⟩ | ⟨-, rfl⟩ | ⟨-, -, hrun, -⟩
  · simp [openFrame_halted s hs, hs]
  · exact ⟨hs, changesOnly_endFrame s⟩
  · simp [hs] at hrun

/-- Settles O26: the pseudocode completes exactly where the instruction has no fault of its own. -/
theorem instructionsChangeOnlyWhatTheyWrite : Obligations.InstructionsChangeOnlyWhatTheyWrite := by
  intro i s t hi h
  rcases (exec_eq_next s t i).mp h with hok | ⟨k, herr, rfl⟩
  · refine ⟨fun _ => executeAt_changesOnly_writes hi hok, fun hfault => ?_⟩
    obtain ⟨k, hk⟩ := Option.ne_none_iff_exists'.mp hfault
    cases hok.symm.trans ((executeAt_eq_error_iff_ownFault hi).mpr hk)
  · have hfault := (executeAt_eq_error_iff_ownFault hi).mp herr
    exact ⟨fun hnone => by simp [hnone] at hfault, fun _ => changesOnly_enterFault s k⟩

/-- Settles O27: a 0NNN runs one of the other instructions, and none of them writes a key vector. -/
theorem noInstructionWritesTheKeys : Obligations.NoInstructionWritesTheKeys := by
  intro i s t h
  rcases exec_cases h with ⟨j, hj, hok⟩ | ⟨k, -, rfl⟩
  · exact ⟨executeAt_keeps_untouched hj hok (p := .key) (by decide),
      executeAt_keeps_untouched hj hok (p := .prevKey) (by decide)⟩
  · exact ⟨rfl, rfl⟩

/-! ## The invariant -/

theorem inv_openFrame {s : State} (h : s.Inv) : (openFrame s).Inv := by
  cases hh : s.halted with
  | true => rwa [openFrame_halted s hh]
  | false =>
    rw [openFrame_running s hh, beginFrame_running _ _ (by simpa using hh)]
    exact { h with budget := Nat.zero_le _, frameLocal := nofun }

theorem inv_endFrame {s : State} (h : s.Inv) : (endFrame s).Inv :=
  { h with budget := Nat.zero_le _, frameLocal := fun _ => ⟨rfl, rfl⟩ }

theorem inv_enterFault {s : State} (h : s.Inv) (hf : s.inFrame = true) {k : Fault}
    (hk : k ≠ .invalidRegister) : (s.enterFault k).Inv :=
  { h with
    haltedKind := by simp
    noInvalidRegister := by simpa using hk
    frameLocal := by simp [hf] }

theorem inv_countStep {s : State} (h : s.Inv) (hf : s.inFrame = true) (hb : s.executed < s.cfg.ipf) :
    (countStep s).Inv :=
  { h with budget := hb, frameLocal := by simp [hf] }

/-- Inside a FRAME, a counted instruction that keeps the untouched parts and the ranges keeps the invariant. -/
theorem inv_countStep_of_kept {s u : State} (h : s.Inv) (hf : s.inFrame = true)
    (hb : s.executed < s.cfg.ipf) (hkept : ∀ p ∈ untouched, p.same s u) (hu : u.InRange) : (countStep u).Inv := by
  have hcfg : u.cfg = s.cfg := hkept .cfg (by decide)
  have hhalted : u.halted = s.halted := hkept .halted (by decide)
  have hkind : u.faultKind = s.faultKind := hkept .faultKind (by decide)
  have hframe : u.inFrame = s.inFrame := hkept .inFrame (by decide)
  have hexecuted : u.executed = s.executed := hkept .executed (by decide)
  exact { hu with
    cfgWf := hcfg ▸ h.cfgWf
    haltedKind := by simpa [hhalted, hkind] using h.haltedKind
    noInvalidRegister := hkind ▸ h.noInvalidRegister
    budget := by simpa [hexecuted, hcfg] using hb
    frameLocal := by simp [hframe, hf] }

/-- Settles O17, by what a step can do: a FRAME opens or returns, or a counted instruction completes or faults. -/
theorem stepKeepsTheInvariant : Obligations.StepKeepsTheInvariant := by
  intro s t hs h
  rcases step_outcomes h with
    ⟨-, rfl⟩ | ⟨-, rfl⟩ | ⟨hf, hb, -, u, rfl, ⟨hkept, hrange⟩ | ⟨k, hk, rfl⟩⟩
  · exact inv_openFrame hs
  · exact inv_endFrame hs
  · exact inv_countStep_of_kept hs hf hb hkept (hrange hs.inRange)
  · exact inv_countStep (inv_enterFault hs hf hk) hf hb

/-! ## The state at reset and after LOAD -/

/-- R48's state has the invariant, whatever canonical memory is loaded into it. -/
theorem inv_initial_setMem {c : Config} (hc : c.wf) {m : Memory} (hm : Memory.wf c m) :
    ((State.initial c).setMem m).Inv where
  cfgWf := hc
  memWf := hm
  indexBound := by simp [State.initial]; omega
  pcBound := by simp [State.initial]; omega
  spBound := Nat.zero_le _
  entryBound := nofun
  haltedKind := by simp [State.initial]
  noInvalidRegister := nofun
  budget := Nat.zero_le _
  frameLocal := fun _ => ⟨rfl, rfl⟩

/-- Settles O18: the reset state is R48's state with nothing loaded. -/
theorem resetHasTheInvariant : Obligations.ResetHasTheInvariant :=
  inv_initial_setMem (c := Config.standard) (by decide) (Memory.wf_nil _)

theorem load_of_fits {c : Config} {image : List Byte} (h : image.length ≤ 4096 - c.entry.toNat) :
    load c image = some ((State.initial c).setMem (Memory.writeBytes c [] c.entry.toNat image)) :=
  if_pos h

theorem load_of_too_long {c : Config} {image : List Byte} (h : 4096 - c.entry.toNat < image.length) :
    load c image = none :=
  if_neg (Nat.not_le.mpr h)

theorem memByte_initial_setMem_writeBytes (c : Config) (start a : Nat) (image : List Byte) :
    ((State.initial c).setMem (Memory.writeBytes c [] start image)).memByte a =
      if h : start ≤ a ∧ a - start < image.length then image[a - start]'h.2 else Memory.unlisted c a :=
  Memory.read_writeBytes c [] start a image

/-- Settles O19: the loaded memory reads as the image where it was written, and as the font or 0 elsewhere. -/
theorem loadBuildsTheFreshState : Obligations.LoadBuildsTheFreshState := by
  intro c image hc
  refine ⟨fun hfits => ⟨_, load_of_fits hfits, ?_⟩, load_of_too_long⟩
  have hentry : 80 ≤ c.entry.toNat := hc.1
  have hmem : Memory.wf c (Memory.writeBytes c [] c.entry.toNat image) :=
    Memory.wf_writeBytes _ _ _ _ (by simp only [memSize]; omega) (Memory.wf_nil c)
  simp only [memByte_initial_setMem_writeBytes]
  refine ⟨inv_initial_setMem hc hmem, fun a ha => ?_, fun k hk => ?_, fun a hfont hout => ?_,
    BitVec.toNat_setWidth_of_le (by decide), fun _ => rfl, BitVec.toNat_setWidth_of_le (by decide),
    rfl, rfl, rfl, Display.cell_clear, rfl, rfl, rfl, rfl, rfl⟩
  · rw [dif_neg (by omega), Memory.unlisted, dif_pos ha]
  · simp [hk]
  · rw [dif_neg (by omega), Memory.unlisted, dif_neg (by omega)]

end Sys2Proof.Machine
end

section
/-! The register block that FX55 stores, read back from memory: what FX55 leaves where it does not fault, the bytes
there as the registers they came from, and the word at the next fetch when it was stored there. -/

namespace Sys2Proof.Machine

theorem State.memWrite_of_fits {s : State} {a : Nat} {bs : List Byte} (h : a + bs.length ≤ 4096) :
    s.memWrite a bs = .ok (s.setMem (Memory.writeBytes s.cfg s.mem a bs)) := by
  rw [State.memWrite_eq, if_pos (.inr h)]

/-- The state that an FX55 of V0..VX leaves when it raises no fault. -/
def State.afterStore (s : State) (x : Reg) : State :=
  (s.advance.setMem (Memory.writeBytes s.cfg s.mem s.i.toNat (registerBlock s.v x))).advanceIndex x

section Store

variable {s : State} {x : Reg}

@[simp] theorem State.afterStore_pc : (s.afterStore x).pc = s.pc + 2 := by
  simp [State.afterStore]

@[simp] theorem State.afterStore_cfg : (s.afterStore x).cfg = s.cfg := by
  simp [State.afterStore]

@[simp] theorem State.afterStore_mem :
    (s.afterStore x).mem = Memory.writeBytes s.cfg s.mem s.i.toNat (registerBlock s.v x) := by
  simp [State.afterStore]

/-- R184: where the block lies inside memory, FX55 completes. -/
theorem exec_ldMemVx_of_fits (h : s.i.toNat + x.toNat ≤ 0xFFF) :
    exec (.ldMemVx x) s = .next (s.afterStore x) := by
  have hwrite : s.advance.memWrite s.i.toNat (registerBlock s.v x) = .ok (s.advance.setMem _) :=
    State.memWrite_of_fits (by rw [length_registerBlock]; omega)
  exact exec_of_ok _ _ (by simp [executeAt, effectOf, ldMemVxEffect, hwrite, State.afterStore])

/-- R184: byte k of the stored block is Vk. -/
theorem State.memByte_afterStore_of_le {k : Reg} (hk : k.toNat ≤ x.toNat) :
    (s.afterStore x).memByte (s.i.toNat + k.toNat) = s.readV k := by
  rw [State.memByte_of_writeBytes _ _ _ _ _ State.afterStore_mem State.afterStore_cfg]
  simp [hk, State.readV]

end Store

/-- Settles O50: the next fetch is at I, where the first two bytes of the block are V0 and V1. -/
theorem storedWordIsFetchedNext : Obligations.StoredWordIsFetchedNext := by
  intro x s t hx hfits hnext h
  obtain rfl := Host.Outcome.next.inj ((exec_ldMemVx_of_fits hfits).symm.trans h)
  have hhi : (s.afterStore x).memByte s.i.toNat = s.readV 0 :=
    State.memByte_afterStore_of_le (k := 0) (Nat.zero_le _)
  have hlo : (s.afterStore x).memByte (s.i.toNat + 1) = s.readV 1 :=
    State.memByte_afterStore_of_le (k := 1) hx
  rw [State.afterStore_pc, hnext, wordAt_eq, if_pos (by omega), hhi, hlo]

end Sys2Proof.Machine
end

section
/-! The decoder against the encoder (30_encoding.md). The decoder is taken apart once, level by level: what it answers
for a word is either the well-formed instruction whose word it is, or InvalidOpcode for a word of R103's list. Both
round trips, the map of R96 and the list follow. -/

namespace Sys2Proof

/-! ## The encoder's words decode -/

theorem decodeZero_of_not_const {w : Word} (hcls : fieldNNN w ≠ 0x0E0#12) (hret : fieldNNN w ≠ 0x0EE#12) :
    decodeZero w = .ok (.sys (fieldNNN w)) := by
  unfold decodeZero
  split
  · contradiction
  · contradiction
  · rfl

/-- Only a 0NNN needs its well-formedness: its word must not be one of the two constants of R97. -/
theorem decode_encode {i : Instr} (hi : i.wf = true) : decode (encode i) = .ok i := by
  cases i with
  | cls => rfl
  | ret => rfl
  | sys nnn =>
    obtain ⟨hcls, hret⟩ : nnn ≠ 0x0E0#12 ∧ nnn ≠ 0x0EE#12 := by simpa [Instr.wf] using hi
    simp [encode, decode, decodeZero_of_not_const, hcls, hret]
  | _ => simp [encode, decode, decodeEight, decodeE, decodeF]

theorem decodeBytes_bytesOfWord {w : Word} {i : Instr} (h : decode w = .ok i) :
    decodeBytes (bytesOfWord w) = .ok (i, []) := by
  simp [bytesOfWord, decodeBytes, h]

/-- Settles O1: the bytes are those of the word, so both decode by `decode_encode`. -/
theorem decodeOfEncode : Obligations.DecodeOfEncode :=
  fun _ hi => ⟨decode_encode hi, decodeBytes_bytesOfWord (decode_encode hi)⟩

/-! ## Every answer of the decoder -/

/-- R103's list of the words that have no handler. -/
def InvalidWord (w : Word) : Prop :=
  (fieldTop w = 0x5 ∧ fieldN w ≠ 0) ∨
  (fieldTop w = 0x8 ∧ fieldN w ∈ [0x8#4, 0x9#4, 0xA#4, 0xB#4, 0xC#4, 0xD#4, 0xF#4]) ∨
  (fieldTop w = 0x9 ∧ fieldN w ≠ 0) ∨
  (fieldTop w = 0xE ∧ fieldNN w ∉ [0x9E#8, 0xA1#8]) ∨
  (fieldTop w = 0xF ∧ fieldNN w ∉ [0x07#8, 0x0A#8, 0x15#8, 0x18#8, 0x1E#8, 0x29#8, 0x33#8, 0x55#8, 0x65#8])

/-- The right answers of a decoder for the word `w`; `decode_answer` ties it to `decode`. -/
inductive Answer (w : Word) : Decoded → Prop
  | instr {i : Instr} (hwf : i.wf = true) (hword : encode i = w) : Answer w (.ok i)
  | invalid (hw : InvalidWord w) : Answer w (.error (.invalidOpcode w))

section Forms

variable {w : Word} {top : Nibble}

/-! A word is the form whose fixed fields it has. -/

theorem formXYN_eq {n : Nibble} (htop : fieldTop w = top) (hn : fieldN w = n) :
    formXYN top (fieldX w) (fieldY w) n = w := by
  rw [← htop, ← hn, formXYN_fields]

theorem formXNN_eq {nn : Byte} (htop : fieldTop w = top) (hnn : fieldNN w = nn) :
    formXNN top (fieldX w) nn = w := by
  rw [← htop, ← hnn, formXNN_fields]

theorem formNNN_eq {nnn : Addr} (htop : fieldTop w = top) (hnnn : fieldNNN w = nnn) : formNNN top nnn = w := by
  rw [← htop, ← hnnn, formNNN_fields]

end Forms

/-! The second level, one decoder at a time. -/

theorem decodeZero_answer {w : Word} (htop : fieldTop w = 0x0#4) : Answer w (decodeZero w) := by
  unfold decodeZero
  split
  · next hnnn => exact .instr rfl (formNNN_eq htop hnnn)
  · next hnnn => exact .instr rfl (formNNN_eq htop hnnn)
  · next hcls hret => exact .instr (by simpa [Instr.wf] using ⟨hcls, hret⟩) (formNNN_eq htop rfl)

/-- Top nibbles 5 and 9, which check N (R101). -/
theorem checkedN_answer {w : Word} {i : Instr} (hwf : i.wf = true) (hword : fieldN w = 0x0#4 → encode i = w)
    (htop : fieldTop w = 0x5#4 ∨ fieldTop w = 0x9#4) :
    Answer w (if fieldN w = 0x0#4 then .ok i else .error (.invalidOpcode w)) := by
  split
  · next hn => exact .instr hwf (hword hn)
  · next hn =>
    refine .invalid ?_
    rcases htop with h | h <;> simp [InvalidWord, h, hn]

/-- R98's nine sub-nibbles and the seven others are all there are. -/
theorem subNibble_cases : ∀ n : Nibble,
    n ∈ [0x0#4, 0x1#4, 0x2#4, 0x3#4, 0x4#4, 0x5#4, 0x6#4, 0x7#4, 0xE#4] ∨
    n ∈ [0x8#4, 0x9#4, 0xA#4, 0xB#4, 0xC#4, 0xD#4, 0xF#4] := by decide

theorem decodeEight_answer {w : Word} (htop : fieldTop w = 0x8#4) : Answer w (decodeEight w) := by
  unfold decodeEight
  split
  case h_10 =>
    refine .invalid (.inr (.inl ⟨htop, ?_⟩))
    have hall := subNibble_cases (fieldN w)
    simp_all
  all_goals exact .instr rfl (formXYN_eq htop ‹_›)

theorem decodeE_answer {w : Word} (htop : fieldTop w = 0xE#4) : Answer w (decodeE w) := by
  unfold decodeE
  split
  case h_3 => exact .invalid (by simp_all [InvalidWord])
  all_goals exact .instr rfl (formXNN_eq htop ‹_›)

theorem decodeF_answer {w : Word} (htop : fieldTop w = 0xF#4) : Answer w (decodeF w) := by
  unfold decodeF
  split
  case h_10 => exact .invalid (by simp_all [InvalidWord])
  all_goals exact .instr rfl (formXNN_eq htop ‹_›)

theorem decode_answer (w : Word) : Answer w (decode w) := by
  -- The cases of `split` are the decoder's arms: top nibble 0 is `h_1`, top nibble F is `h_16`.
  unfold decode
  split
  case h_1 htop => exact decodeZero_answer htop
  case h_6 htop => exact checkedN_answer rfl (formXYN_eq htop) (.inl htop)
  case h_9 htop => exact decodeEight_answer htop
  case h_10 htop => exact checkedN_answer rfl (formXYN_eq htop) (.inr htop)
  case h_14 htop => exact .instr rfl (formXYN_eq htop rfl)
  case h_15 htop => exact decodeE_answer htop
  case h_16 => exact decodeF_answer (by simp only [imp_false] at *; bv_omega)
  case h_2 htop | h_3 htop | h_11 htop | h_12 htop => exact .instr rfl (formNNN_eq htop rfl)
  all_goals exact .instr rfl (formXNN_eq ‹_› rfl)

/-- Settles O2: the instruction that a decoder answers is well-formed and has the word it was given. -/
theorem encodeOfDecode : Obligations.EncodeOfDecode := by
  intro w i h
  obtain ⟨hwf, hword⟩ := h ▸ decode_answer w
  exact ⟨hwf, hword⟩

theorem not_invalidWord_encode (i : Instr) : ¬ InvalidWord (encode i) := by
  cases i with
  | cls => simp [InvalidWord, show fieldTop (encode .cls) = 0x0#4 from Laws.TopNibble.cls]
  | ret => simp [InvalidWord, show fieldTop (encode .ret) = 0x0#4 from Laws.TopNibble.ret]
  | _ => simp [InvalidWord, encode]

theorem decode_eq_error_iff {w : Word} : decode w = .error (.invalidOpcode w) ↔ InvalidWord w := by
  have hanswer := decode_answer w
  generalize decode w = d at hanswer
  cases hanswer with
  | instr hwf hword => exact iff_of_false nofun (hword ▸ not_invalidWord_encode _)
  | invalid hw => exact iff_of_true rfl hw

end Sys2Proof
end

section
/-! What a stored word runs as (30_encoding.md R97 to R105) and what the step does with the word at the pc (R90, R91):
it runs and counts the instruction, or enters the fault of the fetch. -/

namespace Sys2Proof.Machine

/-! ## The step -/

theorem exec_total (i : Instr) (s : State) : ∃ t, exec i s = .next t := by
  cases h : executeAt s.cfg.sysDepthMax i s.advance with
  | ok t => exact ⟨t, exec_of_ok s t h⟩
  | error k => exact ⟨s.enterFault k, exec_of_error s h⟩

theorem instructionStep_total (s : State) : ∃ t, instructionStep s = .next t := by
  unfold instructionStep
  cases fetchInstr s with
  | ok i => exact exec_total i s
  | error k => exact ⟨_, rfl⟩

theorem step_total (s : State) : ∃ t, step s = .next t := by
  obtain ⟨t, ht⟩ := instructionStep_total s
  unfold step
  split
  · split
    · exact ⟨countStep t, by rw [ht, counted]⟩
    · exact ⟨_, rfl⟩
  · exact ⟨_, rfl⟩

/-- Settles O21: an instruction's effect gives a next state and so does its fault, and a step is one or none of them. -/
theorem everyStepHasANextState : Obligations.EveryStepHasANextState :=
  ⟨step_total, exec_total⟩

section GoesOn

variable {s : State} (hf : s.inFrame = true) (hb : s.executed < s.cfg.ipf) (ho : s.frameOver = false)
  (hh : s.halted = false)

include hf hb ho hh

theorem step_of_goesOn : step s = counted (instructionStep s) := by
  rw [step, if_pos hf, if_pos (frameGoesOn_iff.mpr ⟨hb, ho, hh⟩)]

theorem step_of_fetch_ok {i : Instr} {t : State} (hi : fetchInstr s = .ok i) (ht : exec i s = .next t) :
    step s = .next (countStep t) := by
  rw [step_of_goesOn hf hb ho hh, instructionStep, hi]
  simp only [ht, counted]

theorem step_of_fetch_error {k : Fault} (hk : fetchInstr s = .error k) :
    step s = .next (countStep (s.enterFault k)) := by
  rw [step_of_goesOn hf hb ho hh, instructionStep, hk]
  rfl

end GoesOn

/-! ## What a stored word runs as -/

theorem instrAt_of_decode {s : State} {a : Nat} {w : Word} {i : Instr} (h : wordAt s a = .ok w)
    (hd : decode w = .ok i) : instrAt s a = .ok i := by
  rw [instrAt_of_wordAt s h, hd]

theorem instrAt_of_encode {s : State} {a : Nat} {i : Instr} (hi : i.wf = true) (h : wordAt s a = .ok (encode i)) :
    instrAt s a = .ok i :=
  instrAt_of_decode h (decode_encode hi)

theorem instrAt_of_invalidWord {s : State} {a : Nat} {w : Word} (h : wordAt s a = .ok w) (hw : InvalidWord w) :
    instrAt s a = .error .invalidOpcode := by
  rw [instrAt_of_wordAt s h, decode_eq_error_iff.mpr hw]

theorem instrAt_of_outside {s : State} {a : Nat} (h : 4096 < a + 2) : instrAt s a = .error .outOfBoundsAddress := by
  simp [instrAt, wordAt_eq, Nat.not_le.mpr h]

/-- Under a top nibble that checks N (R101), the word is an instruction's exactly when N is 0. -/
theorem instrAt_formXYN_checkingN {s : State} {a : Nat} {top n : Nibble} {x y : Reg} {i : Instr} (hi : i.wf = true)
    (hword : encode i = formXYN top x y 0) (hinvalid : n ≠ 0 → InvalidWord (formXYN top x y n))
    (h : wordAt s a = .ok (formXYN top x y n)) :
    instrAt s a = if n = 0 then .ok i else .error .invalidOpcode := by
  split
  · next hn =>
    subst hn
    exact instrAt_of_encode hi (hword ▸ h)
  · next hn => exact instrAt_of_invalidWord h (hinvalid hn)

/-- Settles O3: a 0NNN that is neither constant is well-formed, so each of the three words is an instruction's. -/
theorem topNibbleZeroNeverInvalid : Obligations.TopNibbleZeroNeverInvalid := by
  intro nnn s a h
  refine ⟨?_, ?_, fun hcls hret => instrAt_of_encode (by simpa [Instr.wf] using ⟨hcls, hret⟩) h⟩
  all_goals
    rintro rfl
    exact instrAt_of_encode rfl h

/-- Settles O4: with N known the word is the encoding of the instruction named, or one of R103's list. -/
theorem topNibbleEightBySubNibble : Obligations.TopNibbleEightBySubNibble := by
  intro x y n s a h
  refine ⟨?_, ?_, ?_, ?_, ?_, ?_, ?_, ?_, ?_,
    fun hn => instrAt_of_invalidWord h (.inr (.inl ⟨by simp, by simpa using hn⟩))⟩
  all_goals
    rintro rfl
    exact instrAt_of_encode rfl h

/-- Settles O5: with NN known the word is the encoding of the instruction named, or one of R103's list. -/
theorem topNibblesEAndFByLowByte : Obligations.TopNibblesEAndFByLowByte := by
  intro x nn s a
  refine ⟨fun h => ⟨?_, ?_, fun hnn => instrAt_of_invalidWord h (by simpa [InvalidWord] using hnn)⟩,
    fun h => ⟨?_, ?_, ?_, ?_, ?_, ?_, ?_, ?_, ?_,
      fun hnn => instrAt_of_invalidWord h (by simpa [InvalidWord] using hnn)⟩⟩
  all_goals
    rintro rfl
    exact instrAt_of_encode rfl h

/-- Settles O6: each word is the encoding of its instruction, but for 5XYN and 9XYN with N other than 0. -/
theorem firstLevelDispatch : Obligations.FirstLevelDispatch := by
  intro x y n nn nnn s a
  refine ⟨instrAt_formXYN_checkingN rfl rfl (by simp [InvalidWord]),
    instrAt_formXYN_checkingN rfl rfl (by simp [InvalidWord]), ?_, ?_, ?_, ?_, ?_, ?_, ?_, ?_, ?_, ?_⟩
  all_goals
    intro h
    exact instrAt_of_encode rfl h

/-- Settles O7: the decoder evaluates on each of the words. -/
theorem specExampleWordsDecode : Obligations.SpecExampleWordsDecode :=
  ⟨rfl, rfl, rfl, rfl, rfl, rfl, rfl, rfl, rfl, rfl, rfl⟩

/-! ## What the step does with the word at the pc -/

/-- Settles O8: the bytes read are the word at the pc, which is fetched as the instruction it decodes to. -/
theorem stepRunsTheFetchedInstruction : Obligations.StepRunsTheFetchedInstruction := by
  intro s t i hf hb ho hh hpc hd ht
  have hword : wordAt s s.pc.toNat = .ok _ := (wordAt_eq s _).trans (if_pos (by omega))
  exact step_of_fetch_ok hf hb ho hh (instrAt_of_decode hword hd) ht

/-- Settles O9: the fetch faults before any byte is looked at, and the step enters its fault. -/
theorem fetchOutsideSpaceFaults : Obligations.FetchOutsideSpaceFaults := by
  intro s hf hb ho hh hpc
  exact step_of_fetch_error hf hb ho hh (instrAt_of_outside (by omega))

/-- Settles O10: the list is `InvalidWord`, whose words make the fetch fault, and the step enters its fault. -/
theorem invalidWordsHaltTheCore : Obligations.InvalidWordsHaltTheCore := by
  refine ⟨fun w => decode_eq_error_iff, ?_⟩
  intro s w hf hb ho hh hword hd
  exact step_of_fetch_error hf hb ho hh (instrAt_of_invalidWord hword (decode_eq_error_iff.mp hd))

end Sys2Proof.Machine
end

section
/-! Control flow (40_control_flow.md). What RET, CALL, the jumps and the skips leave, one equation each (R131 to R139);
then 0NNN (R130), which runs what its chain of stored words ends in, or enters the fault the chain meets. -/

namespace Sys2Proof.Machine

theorem faultsWith_of_ownFault {i : Instr} {s : State} {k : Fault} (hi : ∀ m, i ≠ .sys m)
    (h : ownFault s i = some k) : faultsWith i s k :=
  exec_of_error s ((executeAt_eq_error_iff_ownFault hi).mpr h)

/-! ## RET and CALL -/

theorem exec_ret_of_cons {s : State} {w : Word} {rest : List Word} (h : s.stack = w :: rest) :
    exec .ret s = .next ((s.advance.setStack rest).setPc w) :=
  exec_of_ok _ _ (s.advance.popToPc_cons h)

/-- The state that a CALL leaves when it raises no fault: its own address + 2 is pushed. -/
def State.afterCall (s : State) (nnn : Addr) : State :=
  (s.advance.setStack ((s.pc + 2) :: s.stack)).setPc (jumpTarget nnn)

@[simp] theorem State.afterCall_pc (s : State) (nnn : Addr) : (s.afterCall nnn).pc = jumpTarget nnn := rfl

@[simp] theorem State.afterCall_stack (s : State) (nnn : Addr) :
    (s.afterCall nnn).stack = (s.pc + 2) :: s.stack := rfl

@[simp] theorem State.afterCall_sp (s : State) (nnn : Addr) : (s.afterCall nnn).sp = s.sp + 1 := rfl

theorem exec_call_of_lt {s : State} (nnn : Addr) (h : s.sp < s.cfg.stackDepth) :
    exec (.call nnn) s = .next (s.afterCall nnn) := by
  have hpush : s.advance.push s.advance.pc = .ok (s.advance.setStack ((s.pc + 2) :: s.stack)) :=
    (s.advance.push_eq _).trans (if_neg (Nat.not_le.mpr h))
  exact exec_of_ok _ _ (by simp only [executeAt, effectOf, callEffect, hpush, State.afterCall])

section PushedEntry

variable {s t : State} {w : Word} (h : t.stack = w :: s.stack)

include h

theorem State.stackEntry_sp_of_pushed : t.stackEntry s.sp = w := by
  simp [State.stackEntry, State.sp, h]

theorem State.stackEntry_of_pushed {k : Nat} (hk : k < s.sp) : t.stackEntry k = s.stackEntry k := by
  have hlen : k < s.stack.reverse.length := by simpa [State.sp] using hk
  rw [State.stackEntry, State.stackEntry, h, List.reverse_cons, List.getD_append _ _ _ _ hlen]

end PushedEntry

theorem jumpTarget_toNat (nnn : Addr) : (jumpTarget nnn).toNat = nnn.toNat := by
  simp only [jumpTarget]
  bv_omega

/-- Settles O29: the stack is empty or has a top entry, and an empty one is RET's own fault. -/
theorem returnPopsTheStack : Obligations.ReturnPopsTheStack := by
  intro s
  refine ⟨fun w rest hs => ⟨_, exec_ret_of_cons hs, rfl, rfl, ?_, by simp⟩, fun hsp => ?_⟩
  · simp [State.sp, hs]
  · exact faultsWith_of_ownFault nofun (if_pos hsp)

/-- Settles O31: CALL leaves `State.afterCall`, and a full stack is its own fault. -/
theorem callPushesTheReturnAddress : Obligations.CallPushesTheReturnAddress := by
  intro nnn s
  refine ⟨fun hsp => ⟨_, exec_call_of_lt nnn hsp, jumpTarget_toNat nnn, s.afterCall_sp nnn, ?_, fun k hk => ?_, ?_⟩,
    fun hsp => faultsWith_of_ownFault nofun (if_pos hsp)⟩
  · exact State.stackEntry_sp_of_pushed (s.afterCall_stack nnn)
  · exact State.stackEntry_of_pushed (s.afterCall_stack nnn) hk
  · simp [State.afterCall]

/-- Settles O32: the entry on top when RET runs is the one the CALL pushed, and below it lies the stack before it. -/
theorem callThenReturnComesBack : Obligations.CallThenReturnComesBack := by
  intro nnn s t u hsp hcall hu
  obtain rfl := Host.Outcome.next.inj ((exec_call_of_lt nnn hsp).symm.trans hcall)
  exact ⟨_, exec_ret_of_cons (hu.trans (s.afterCall_stack nnn)), rfl, rfl, rfl⟩

/-! ## Jumps and skips -/

theorem indexedTarget_toNat (nnn : Addr) (b : Byte) : (indexedTarget nnn b).toNat = nnn.toNat + b.toNat := by
  simp only [indexedTarget]
  bv_omega

/-- Settles O30: each jump sets the pc to its target, and BNNN's is at most 0xFFF + 0xFF. -/
theorem jumpsSetThePc : Obligations.JumpsSetThePc := by
  intro nnn s
  have htarget : (indexedTarget nnn (s.readV 0)).toNat = nnn.toNat + (s.readV 0).toNat := indexedTarget_toNat ..
  refine ⟨⟨s.advance.setPc (jumpTarget nnn), exec_of_ok _ _ rfl, jumpTarget_toNat nnn, by simp⟩,
    s.advance.setPc (indexedTarget nnn (s.readV 0)), exec_of_ok _ _ rfl, htarget, ?_, by simp⟩
  rw [State.setPc_pc, htarget]
  omega

/-- An instruction whose pseudocode is a skip on the test `c`. -/
theorem exec_of_skipIf {i : Instr} {s : State} {c : Bool}
    (h : executeAt s.cfg.sysDepthMax i s.advance = .ok (s.advance.skipIf c)) :
    ∃ t, exec i s = .next t ∧ changesOnly [.pc] s t ∧
      (c = true → t.pc = s.pc + 4) ∧ (c = false → t.pc = s.pc + 2) := by
  refine ⟨_, exec_of_ok _ _ h, by simp, ?_, ?_⟩
  · rintro rfl
    exact BitVec.add_assoc s.pc 2 2
  · rintro rfl
    rfl

/-- Settles O33: the four skips test the equality of two bytes, or its negation. -/
theorem skipsTestTheirCondition : Obligations.SkipsTestTheirCondition := by
  intro x y nn s
  refine ⟨?_, ?_, ?_, ?_⟩
  · simpa using exec_of_skipIf (i := .seVxNn x nn) (s := s) (c := s.readV x == nn) rfl
  · simpa using exec_of_skipIf (i := .sneVxNn x nn) (s := s) (c := s.readV x != nn) rfl
  · simpa using exec_of_skipIf (i := .seVxVy x y) (s := s) (c := s.readV x == s.readV y) rfl
  · simpa using exec_of_skipIf (i := .sneVxVy x y) (s := s) (c := s.readV x != s.readV y) rfl

/-! ## The chain of stored words -/

section Chain

variable {s : State} {a : Addr} {i : Instr} {k : Fault} (n : Nat)

theorem chainResult_succ_of_sys {m : Addr} (h : instrAt s a.toNat = .ok (.sys m)) :
    chainResult (n + 1) s a = chainResult n s m := by
  simp only [chainResult, h]

theorem chainResult_succ_of_not_sys (h : instrAt s a.toNat = .ok i) (hi : ∀ m, i ≠ .sys m) :
    chainResult (n + 1) s a = .ok i := by
  rw [chainResult, h]
  cases i with
  | sys m => exact absurd rfl (hi m)
  | _ => rfl

theorem chainResult_succ_of_error (h : instrAt s a.toNat = .error k) : chainResult (n + 1) s a = .error k := by
  simp only [chainResult, h]

theorem chainResult_of_self (h : instrAt s a.toNat = .ok (.sys a)) : chainResult n s a = .error .sysDepthExceeded := by
  induction n with
  | zero => rfl
  | succ n ih => rw [chainResult_succ_of_sys n h, ih]

/-- R130: under exec_at, 0NNN is what its chain ends in, run in its own place. -/
theorem sysAt_advance_eq_chainResult_bind (hmode : s.cfg.sysMode = .execAt) :
    sysAt n a s.advance = (chainResult n s a).bind fun j => executeAt 0 j s.advance := by
  induction n generalizing a with
  | zero => exact sysAt_zero _ a hmode
  | succ n ih =>
    cases hi : instrAt s a.toNat with
    | error k =>
      rw [chainResult_succ_of_error n hi]
      exact sysAt_succ_error _ n a hmode hi
    | ok j =>
      rw [sysAt_succ_ok s.advance n a hmode hi]
      by_cases hj : ∃ m, j = .sys m
      · obtain ⟨m, rfl⟩ := hj
        rw [chainResult_succ_of_sys n hi]
        exact ih
      · push Not at hj
        rw [chainResult_succ_of_not_sys n hi hj]
        exact executeAt_of_not_sys _ hj n 0

theorem chainResult_ne_sys (h : chainResult n s a = .ok i) (m : Addr) : i ≠ .sys m := by
  induction n generalizing a with
  | zero => cases h
  | succ n ih =>
    rw [chainResult] at h
    split at h
    · exact ih h
    · next j hj _ =>
      obtain rfl := Except.ok.inj h
      exact hj m
    · cases h

end Chain

/-! ## 0NNN -/

section Sys

variable {nnn : Addr} {s : State}

theorem exec_sys_of_chain_ok {i : Instr} (hmode : s.cfg.sysMode = .execAt)
    (h : chainResult s.cfg.sysDepthMax s nnn = .ok i) : exec (.sys nnn) s = exec i s := by
  have hsame : executeAt s.cfg.sysDepthMax (.sys nnn) s.advance = executeAt s.cfg.sysDepthMax i s.advance := by
    calc sysAt s.cfg.sysDepthMax nnn s.advance
      _ = executeAt 0 i s.advance := by rw [sysAt_advance_eq_chainResult_bind _ hmode, h]; rfl
      _ = _ := executeAt_of_not_sys _ (chainResult_ne_sys _ h) _ _
  rw [exec_eq_atomically, exec_eq_atomically, atomically, atomically, hsame]

theorem faultsWith_sys_of_chain_error {k : Fault} (hmode : s.cfg.sysMode = .execAt)
    (h : chainResult s.cfg.sysDepthMax s nnn = .error k) : faultsWith (.sys nnn) s k := by
  have herr : sysAt s.cfg.sysDepthMax nnn s.advance = .error k := by
    rw [sysAt_advance_eq_chainResult_bind _ hmode, h]
    rfl
  exact exec_of_error s herr

theorem faultsWith_sys_of_instrAt_error {k : Fault} (hmode : s.cfg.sysMode = .execAt)
    (hdepth : 1 ≤ s.cfg.sysDepthMax) (h : instrAt s nnn.toNat = .error k) : faultsWith (.sys nnn) s k := by
  obtain ⟨n, hn⟩ := Nat.exists_eq_add_of_le' hdepth
  exact faultsWith_sys_of_chain_error hmode (hn ▸ chainResult_succ_of_error n h)

end Sys

/-- Settles O35: 0NNN is the instruction its chain ends in, and every instruction has a next state. -/
theorem sysFollowsTheChain : Obligations.SysFollowsTheChain := by
  intro nnn s hmode
  refine ⟨fun i hi => ?_, fun k hk => faultsWith_sys_of_chain_error hmode hk⟩
  obtain ⟨t, ht⟩ := exec_total i s
  exact ⟨t, (exec_sys_of_chain_ok hmode hi).trans ht, ht⟩

/-- Settles O34: the chain ends at its first word, and an instruction without a fault keeps to its frame. -/
theorem sysRunsTheStoredInstruction : Obligations.SysRunsTheStoredInstruction := by
  intro nnn i s hmode hdepth hnnn hd hi
  have hword : wordAt s nnn.toNat = .ok _ := (wordAt_eq s _).trans (if_pos (by omega))
  obtain ⟨n, hn⟩ := Nat.exists_eq_add_of_le' hdepth
  have hchain : chainResult s.cfg.sysDepthMax s nnn = .ok i :=
    hn ▸ chainResult_succ_of_not_sys n (instrAt_of_decode hword hd) hi
  obtain ⟨t, ht⟩ := exec_total i s
  refine ⟨t, (exec_sys_of_chain_ok hmode hchain).trans ht, ht, fun hnone => ?_⟩
  have hframe : changesOnly (writes i) s t := (instructionsChangeOnlyWhatTheyWrite i s t hi ht).1 hnone
  exact ⟨hframe .halted (halted_not_mem_writes i),
    hframe .faultKind (not_mem_writes_of_mem_untouched i (by decide)), hframe⟩

/-- Settles O36: a refusal comes before the chain, and each of the other three faults is one the chain meets. -/
theorem sysFaults : Obligations.SysFaults := by
  intro nnn s
  refine ⟨fun hmode => ?_, ?_, ?_, ?_⟩
  · exact exec_of_error s (sysAt_refuse s.advance _ nnn hmode)
  · rintro hmode hdepth rfl
    exact faultsWith_sys_of_instrAt_error hmode hdepth (instrAt_of_outside (by decide))
  · rintro hmode hdepth ⟨w, hword, hd⟩
    exact faultsWith_sys_of_instrAt_error hmode hdepth
      (instrAt_of_invalidWord hword (decode_eq_error_iff.mp hd))
  · rintro hmode ⟨w, hword, hd⟩
    exact faultsWith_sys_of_chain_error hmode (chainResult_of_self _ (instrAt_of_decode hword hd))

end Sys2Proof.Machine
end

section
/-! Register/immediate instructions (41_register_immediate.md): what an instruction leaves whose pseudocode writes one
register; with it the load and the addition (R150, R151). The masked random byte (R152) is a write and a draw. -/

namespace Sys2Proof.Machine

/-! ## Writing one register -/

section KeptRegisters

variable {xs : List Reg} {s t : State}

@[simp] theorem keepsRegsBut_refl : keepsRegsBut xs s s := fun _ _ => rfl

@[simp] theorem keepsRegsBut_advance_iff : keepsRegsBut xs s t.advance ↔ keepsRegsBut xs s t := .rfl

@[simp] theorem keepsRegsBut_drawFree_iff : keepsRegsBut xs s t.drawFree ↔ keepsRegsBut xs s t := .rfl

@[simp] theorem keepsRegsBut_writeV_iff {x : Reg} (b : Byte) (h : x ∈ xs) :
    keepsRegsBut xs s (t.writeV x b) ↔ keepsRegsBut xs s t :=
  forall₂_congr fun k hk => by
    have hkx : k ≠ x := fun he => hk (he ▸ h)
    rw [State.readV_writeV, if_neg hkx]

end KeptRegisters

/-- An instruction whose pseudocode is a write of the byte `b` to VX. -/
theorem exec_of_writeV {i : Instr} {s : State} {x : Reg} {b : Byte}
    (h : executeAt s.cfg.sysDepthMax i s.advance = .ok (s.advance.writeV x b)) :
    ∃ t, exec i s = .next t ∧ t.readV x = b ∧ t.pc = s.pc + 2 ∧ keepsRegsBut [x] s t ∧ changesOnly [.pc, .v] s t :=
  ⟨_, exec_of_ok _ _ h, by simp, rfl, by simp, by simp⟩

theorem sum8_toNat (x y : Byte) : (sum8 x y).toNat = (x.toNat + y.toNat) % 256 := by
  simp [sum8]

/-! ## The three instructions -/

/-- Settles O37: the pseudocode is the one write of NN. -/
theorem loadImmediate : Obligations.LoadImmediate :=
  fun _ _ _ => exec_of_writeV rfl

/-- Settles O38: the pseudocode is the one write of the sum modulo 256. -/
theorem addImmediateWrapsWithoutFlag : Obligations.AddImmediateWrapsWithoutFlag := by
  intro x nn s
  obtain ⟨t, ht, hx, hframe⟩ := exec_of_writeV (i := .addVxNn x nn) (s := s) (b := sum8 (s.readV x) nn) rfl
  exact ⟨t, ht, hx ▸ sum8_toNat _ _, hframe⟩

/-- Settles O39: VX holds the free byte of this draw under the mask, and the next draw is another one. -/
theorem randomByteIsMasked : Obligations.RandomByteIsMasked := by
  intro x nn s
  refine ⟨(s.advance.writeV x (Config.freeRnd s.freeCount &&& nn)).drawFree, exec_of_ok _ _ rfl,
    fun k => ?_, ?_, rfl, rfl, by simp, by simp⟩
  · simp [Bool.and_comm]
  · rintro rfl
    simp

end Sys2Proof.Machine
end

section
/-! Register/register instructions (42_register_register.md): what an instruction leaves whose pseudocode writes a
result to VX and then a flag to VF (R160), the arithmetic on bytes as arithmetic on numbers, and with these R161 to R169. -/

namespace Sys2Proof.Machine

/-! ## Writing a result and then the flag -/

@[simp] theorem changesOnly_writeResult_iff {ps : List Part} {s t : State} (x : Reg) (r : Byte) (g : Bool)
    (h : .v ∈ ps) : changesOnly ps s (t.writeResult x r g) ↔ changesOnly ps s t := by
  simp [State.writeResult, h]

@[simp] theorem keepsRegsBut_writeResult_iff {xs : List Reg} {s t : State} {x : Reg} (r : Byte) (g : Bool)
    (hx : x ∈ xs) (hf : regF ∈ xs) : keepsRegsBut xs s (t.writeResult x r g) ↔ keepsRegsBut xs s t := by
  simp [State.writeResult, hx, hf]

section ResultAndFlag

variable {i : Instr} {s : State} {x : Reg}

/-- An instruction whose pseudocode writes the result `r` to VX and the flag `g` to VF: where X = F the flag is left. -/
theorem exec_of_writeResult {r : Byte} {g : Bool}
    (h : executeAt s.cfg.sysDepthMax i s.advance = .ok (s.advance.writeResult x r g)) :
    ∃ t, exec i s = .next t ∧ t.pc = s.pc + 2 ∧ (x ≠ 0xF → t.readV x = r) ∧ t.readV 0xF = flagByte g ∧
      keepsRegsBut [x, 0xF] s t ∧ changesOnly [.pc, .v] s t :=
  ⟨_, exec_of_ok _ _ h, rfl, fun hx => by simp [show x ≠ regF from hx], by simp, by simp, by simp⟩

/-- A logic operation: its result `r` bit by bit, and the flag 0. -/
theorem exec_of_logicResult {r : Byte} {bit : Nat → Bool} (hr : ∀ k, r.getLsbD k = bit k)
    (h : executeAt s.cfg.sysDepthMax i s.advance = .ok (s.advance.writeResult x r false)) :
    ∃ t, exec i s = .next t ∧ t.readV 0xF = 0 ∧ t.pc = s.pc + 2 ∧
      (x ≠ 0xF → ∀ k : Nat, (t.readV x).getLsbD k = bit k) ∧
      keepsRegsBut [x, 0xF] s t ∧ changesOnly [.pc, .v] s t := by
  obtain ⟨t, ht, hpc, hx, hflag, hframe⟩ := exec_of_writeResult h
  exact ⟨t, ht, hflag, hpc, fun hxF k => hx hxF ▸ hr k, hframe⟩

end ResultAndFlag

/-! ## The arithmetic of Flags.lean as arithmetic on numbers -/

theorem flagByte_decide (p : Prop) [Decidable p] : flagByte (decide p) = if p then 1 else 0 := by
  simp [flagByte]

theorem flagByte_toNat (b : Bool) : (flagByte b).toNat = b.toNat := by cases b <;> rfl

theorem diff8_toInt (x y : Byte) : ((diff8 x y).toNat : Int) = (x.toNat - y.toNat : Int) % 256 := by
  simp only [diff8, BitVec.toNat_ofNat]
  omega

theorem half8_eq_ushiftRight (y : Byte) : half8 y = y >>> 1 := by
  apply BitVec.eq_of_toNat_eq
  simp only [half8, BitVec.toNat_ofNat, BitVec.toNat_ushiftRight, Nat.shiftRight_one]
  omega

theorem double8_eq_shiftLeft (y : Byte) : double8 y = y <<< 1 :=
  BitVec.eq_of_toNat_eq (by simp [double8, Nat.shiftLeft_eq])

theorem flagByte_lowBit_toNat (y : Byte) : (flagByte (lowBit y)).toNat = y.toNat % 2 := by
  simp only [flagByte_toNat, lowBit, BitVec.getLsbD, Nat.toNat_testBit]
  omega

/-- A byte is less than 256, so its quotient by 128 is bit 7 itself. -/
theorem flagByte_highBit_toNat (y : Byte) : (flagByte (highBit y)).toNat = y.toNat / 128 := by
  simp only [flagByte_toNat, highBit, BitVec.getLsbD, Nat.toNat_testBit]
  omega

/-- A subtraction: its result is the difference modulo 256, and the flag says that nothing was borrowed. -/
theorem exec_of_difference {i : Instr} {s : State} {x : Reg} {a b : Byte}
    (h : executeAt s.cfg.sysDepthMax i s.advance = .ok (s.advance.writeResult x (diff8 a b) (notBorrow8 a b))) :
    ∃ t, exec i s = .next t ∧ t.pc = s.pc + 2 ∧
      (x ≠ 0xF → ((t.readV x).toNat : Int) = (a.toNat - b.toNat : Int) % 256) ∧
      t.readV 0xF = (if b.toNat ≤ a.toNat then 1 else 0) ∧
      keepsRegsBut [x, 0xF] s t ∧ changesOnly [.pc, .v] s t := by
  obtain ⟨t, ht, hpc, hx, hflag, hframe⟩ := exec_of_writeResult h
  exact ⟨t, ht, hpc, fun hxF => hx hxF ▸ diff8_toInt a b, hflag.trans (flagByte_decide _), hframe⟩

/-! ## The nine instructions -/

/-- Settles O40: the pseudocode is the one write of VY. -/
theorem copyRegister : Obligations.CopyRegister :=
  fun _ _ _ => exec_of_writeV rfl

/-- Settles O41: the three are one argument, over what a bit of the result is. -/
theorem logicClearsTheFlag : Obligations.LogicClearsTheFlag := fun _ _ _ =>
  ⟨exec_of_logicResult (fun _ => BitVec.getLsbD_or) rfl,
    exec_of_logicResult (fun _ => BitVec.getLsbD_and) rfl,
    exec_of_logicResult (fun _ => BitVec.getLsbD_xor) rfl⟩

/-- Settles O42: the result is the sum modulo 256, and the flag is the test of the exact sum. -/
theorem addSetsCarry : Obligations.AddSetsCarry := by
  intro x y s
  obtain ⟨t, ht, hpc, hx, hflag, hframe⟩ := exec_of_writeResult (i := .addVxVy x y) (s := s) rfl
  exact ⟨t, ht, hpc, fun hxF => hx hxF ▸ sum8_toNat _ _, hflag.trans (flagByte_decide _), hframe⟩

/-- Settles O43: the two are one subtraction with the operands in either order. -/
theorem subtractionsSetNotBorrow : Obligations.SubtractionsSetNotBorrow :=
  fun _ _ _ => ⟨exec_of_difference rfl, exec_of_difference rfl⟩

/-- Settles O44: halving and doubling VY are its shifts by 1, and the flag is VY's low or high bit. -/
theorem shiftsTakeVy : Obligations.ShiftsTakeVy := by
  intro x y s
  constructor
  · obtain ⟨t, ht, hpc, hx, hflag, hframe⟩ := exec_of_writeResult (i := .shrVxVy x y) (s := s) rfl
    exact ⟨t, ht, hpc, fun hxF => hx hxF ▸ half8_eq_ushiftRight _, hflag ▸ flagByte_lowBit_toNat _, hframe⟩
  · obtain ⟨t, ht, hpc, hx, hflag, hframe⟩ := exec_of_writeResult (i := .shlVxVy x y) (s := s) rfl
    exact ⟨t, ht, hpc, fun hxF => hx hxF ▸ double8_eq_shiftLeft _, hflag ▸ flagByte_highBit_toNat _, hframe⟩

end Sys2Proof.Machine
end

section
/-! Memory and index instructions (43_memory_index.md): the writes to I (R180 to R182), the decimal digits (R183), and
the register block stored by FX55 and loaded by FX65 (R184, R185), with the round trip through both. -/

namespace Sys2Proof.Machine

/-! ## Writing I -/

theorem State.writeI_i_toNat (s : State) (n : Nat) : (s.writeI n).i.toNat = n % 4096 := by
  rw [State.writeI_i, BitVec.toNat_ofNat]
  omega

theorem State.advanceIndex_i_toNat (s : State) (x : Reg) (h : s.cfg.indexAdvance = true) :
    (s.advanceIndex x).i.toNat = (s.i.toNat + x.toNat + 1) % 4096 := by
  rw [State.advanceIndex, if_pos h, State.writeI_i_toNat]

theorem State.advanceIndex_i_of_not (s : State) (x : Reg) (h : s.cfg.indexAdvance = false) :
    (s.advanceIndex x).i = s.i := by
  simp [h]

/-- An instruction whose pseudocode is a write of `n` to I. -/
theorem exec_of_writeI {i : Instr} {s : State} {n : Nat}
    (h : executeAt s.cfg.sysDepthMax i s.advance = .ok (s.advance.writeI n)) :
    ∃ t, exec i s = .next t ∧ t.i.toNat = n % 4096 ∧ t.pc = s.pc + 2 ∧ changesOnly [.pc, .i] s t :=
  ⟨_, exec_of_ok _ _ h, State.writeI_i_toNat _ n, rfl, by simp⟩

/-- Settles O45: NNN and the address of a glyph lie below 4096, so the mask changes only the sum. -/
theorem indexWrites : Obligations.IndexWrites := by
  intro nnn x s
  refine ⟨?_, exec_of_writeI rfl, ?_⟩
  · obtain ⟨t, ht, hi, hframe⟩ := exec_of_writeI (i := .ldINnn nnn) (s := s) rfl
    exact ⟨t, ht, hi.trans (Nat.mod_eq_of_lt nnn.isLt), hframe⟩
  · obtain ⟨t, ht, hi, hframe⟩ := exec_of_writeI (i := .ldFVx x) (s := s) rfl
    have hglyph : t.i.toNat = 5 * ((s.readV x).toNat % 16) := by
      rw [hi, glyphAddr, lowNibble, State.advance_readV]
      omega
    exact ⟨t, ht, hglyph, by omega, hframe⟩

/-! ## Consecutive bytes written to memory -/

section Written

variable {s t : State} {a k : Nat} {bs : List Byte}
  (hm : t.mem = Memory.writeBytes s.cfg s.mem a bs) (hc : t.cfg = s.cfg)

include hm hc

theorem State.memByte_of_written (hk : k < bs.length) : t.memByte (a + k) = bs[k] := by
  simp [State.memByte_of_writeBytes _ _ _ _ _ hm hc, hk]

theorem State.memByte_of_not_written (hk : k < a ∨ a + bs.length ≤ k) : t.memByte k = s.memByte k := by
  rw [State.memByte_of_writeBytes _ _ _ _ _ hm hc, dif_neg (by omega)]

end Written

/-! ## Decimal digits -/

theorem decimalDigits_map_toNat (b : Byte) :
    (decimalDigits b).map BitVec.toNat = [b.toNat / 100, b.toNat / 10 % 10, b.toNat % 10] := by
  simp only [decimalDigits, List.map_cons, List.map_nil, BitVec.toNat_ofNat, List.cons.injEq, and_true]
  omega

/-- The state that an FX33 of VX leaves when it raises no fault. -/
def State.afterDigits (s : State) (x : Reg) : State :=
  s.advance.setMem (Memory.writeBytes s.cfg s.mem s.i.toNat (decimalDigits (s.readV x)))

section Digits

variable {s : State} {x : Reg}

@[simp] theorem State.afterDigits_cfg : (s.afterDigits x).cfg = s.cfg := rfl

@[simp] theorem State.afterDigits_mem :
    (s.afterDigits x).mem = Memory.writeBytes s.cfg s.mem s.i.toNat (decimalDigits (s.readV x)) := rfl

/-- R183: where the three digits lie inside memory, FX33 completes. -/
theorem exec_ldBVx_of_fits (h : s.i.toNat + 2 ≤ 0xFFF) : exec (.ldBVx x) s = .next (s.afterDigits x) :=
  exec_of_ok _ _ (State.memWrite_of_fits (s := s.advance) (bs := decimalDigits (s.readV x)) (Nat.succ_le_succ h))

/-- R183: byte k of the three at I is digit k; each digit is less than 256, so a byte holds it. -/
theorem State.memByte_afterDigits_toNat {k : Nat} (hk : k < 3) :
    ((s.afterDigits x).memByte (s.i.toNat + k)).toNat =
      [(s.readV x).toNat / 100, (s.readV x).toNat / 10 % 10, (s.readV x).toNat % 10][k] := by
  have hbyte : (s.afterDigits x).memByte (s.i.toNat + k) = (decimalDigits (s.readV x))[k] :=
    State.memByte_of_written State.afterDigits_mem State.afterDigits_cfg hk
  simp only [hbyte, ← decimalDigits_map_toNat]
  exact (List.getElem_map _).symm

end Digits

/-- Settles O46: FX33 leaves `State.afterDigits`, and digits that end outside memory are its own fault. -/
theorem storeDecimalDigits : Obligations.StoreDecimalDigits := by
  intro x s
  refine ⟨fun hfits => ⟨_, exec_ldBVx_of_fits hfits, ?_, ?_, ?_, fun a ha => ?_, rfl, by simp [State.afterDigits]⟩,
    fun hout => faultsWith_of_ownFault nofun (if_pos hout)⟩
  · exact State.memByte_afterDigits_toNat (k := 0) (by decide)
  · exact State.memByte_afterDigits_toNat (k := 1) (by decide)
  · exact State.memByte_afterDigits_toNat (k := 2) (by decide)
  · exact State.memByte_of_not_written State.afterDigits_mem State.afterDigits_cfg ha

/-! ## The register block -/

/-- Settles O47: FX55 leaves `State.afterStore`, and a block that ends outside memory is its own fault. -/
theorem storeRegisterBlock : Obligations.StoreRegisterBlock := by
  intro x s
  refine ⟨fun hfits => ⟨_, exec_ldMemVx_of_fits hfits, fun k hk => State.memByte_afterStore_of_le hk, fun a ha => ?_,
    (s.advance.setMem _).advanceIndex_i_toNat x, (s.advance.setMem _).advanceIndex_i_of_not x,
    State.afterStore_pc, by simp [State.afterStore]⟩, fun hout => faultsWith_of_ownFault nofun (if_pos hout)⟩
  refine State.memByte_of_not_written State.afterStore_mem State.afterStore_cfg ?_
  rw [length_registerBlock]
  omega

/-- The state that an FX65 of V0..VX leaves when it raises no fault. -/
def State.afterLoad (s : State) (x : Reg) : State :=
  (s.advance.setV (loadBlock (s.bytesAt s.i.toNat (x.toNat + 1)) 0 s.v)).advanceIndex x

section Load

variable {s : State} {x : Reg}

/-- R185: where the block lies inside memory, FX65 completes. -/
theorem exec_ldVxMem_of_fits (h : s.i.toNat + x.toNat ≤ 0xFFF) :
    exec (.ldVxMem x) s = .next (s.afterLoad x) := by
  have hread : s.advance.memRead s.i.toNat (x.toNat + 1) = .ok (s.bytesAt s.i.toNat (x.toNat + 1)) := by
    rw [State.memRead_eq, if_pos (by omega), State.bytesAt_advance]
  exact exec_of_ok _ _ (by simp [executeAt, effectOf, ldVxMemEffect, hread, State.afterLoad])

/-- R185: the registers up to VX hold the block, those above are kept. -/
theorem State.readV_afterLoad (k : Reg) :
    (s.afterLoad x).readV k = if k.toNat ≤ x.toNat then s.memByte (s.i.toNat + k.toNat) else s.readV k := by
  simp [State.afterLoad, State.readV, getElem_loadBlock]

end Load

/-- Settles O48: FX65 leaves `State.afterLoad`, and a block that ends outside memory is its own fault. -/
theorem loadRegisterBlock : Obligations.LoadRegisterBlock := by
  intro x s
  refine ⟨fun hfits => ⟨_, exec_ldVxMem_of_fits hfits, fun k hk => ?_, fun k hk => ?_,
    (s.advance.setV _).advanceIndex_i_toNat x, (s.advance.setV _).advanceIndex_i_of_not x,
    ?_, by simp [State.afterLoad]⟩, fun hout => faultsWith_of_ownFault nofun (if_pos hout)⟩
  · rw [State.readV_afterLoad, if_pos hk]
  · rw [State.readV_afterLoad, if_neg (Nat.not_le.mpr hk)]
  · simp [State.afterLoad]

/-- Settles O49: FX65 loads Vk from the byte at I + k, where FX55 left it. -/
theorem storeThenLoadGivesTheRegistersBack : Obligations.StoreThenLoadGivesTheRegistersBack := by
  intro x s t u hfits hstore hmem hcfg hi
  obtain rfl := Host.Outcome.next.inj ((exec_ldMemVx_of_fits hfits).symm.trans hstore)
  refine ⟨_, exec_ldVxMem_of_fits (hi ▸ hfits), fun k hk => ?_⟩
  calc (u.afterLoad x).readV k
      = u.memByte (s.i.toNat + k.toNat) := by rw [State.readV_afterLoad, if_pos hk, hi]
    _ = (s.afterStore x).memByte (s.i.toNat + k.toNat) := State.memByte_congr _ _ _ hmem hcfg
    _ = s.readV k := State.memByte_afterStore_of_le hk

end Sys2Proof.Machine
end

section
/-! Display instructions (44_display.md): the clear (R200), the state that a draw leaves and what it holds cell by cell
(R201, R202), and the draw repeated at the same place. -/

namespace Sys2Proof.Machine

/-- Settles O51: the pseudocode is the one write of the blank display. -/
theorem clearScreen : Obligations.ClearScreen :=
  fun s => ⟨s.advance.setDisplay Display.clear, exec_of_ok _ _ rfl, by simp, rfl, by simp⟩

/-! ## Flags, frames and sets of cells -/

theorem flagByte_eq_one_iff (b : Bool) : flagByte b = 1 ↔ b = true := by cases b <;> decide

theorem flagByte_eq_zero_or_eq_one (b : Bool) : flagByte b = 0 ∨ flagByte b = 1 := by cases b <;> decide

@[simp] theorem keepsRegsBut_setDisplay_iff {xs : List Reg} {s t : State} (d : Display) :
    keepsRegsBut xs s (t.setDisplay d) ↔ keepsRegsBut xs s t := .rfl

@[simp] theorem keepsRegsBut_endFrameEarly_iff {xs : List Reg} {s t : State} :
    keepsRegsBut xs s t.endFrameEarly ↔ keepsRegsBut xs s t := .rfl

/-- A set of cells given by its bits, all of them unclipped: drawing it is exclusive or. -/
theorem Draws.cell_eq_xor {bit : Nat → Nat → Bool} {p q : Canvas} {x y : Nat}
    (h : Draws (fun x y => x < 64 ∧ y < 32 ∧ bit x y = true) p q) (hx : x < 64) (hy : y < 32) :
    Display.cell q.1 x y = (Display.cell p.1 x y ^^ bit x y) := by
  obtain ⟨hin, hout⟩ := h.1 x y
  cases hb : bit x y with
  | true => simpa using (hin ⟨hx, hy, hb⟩).2.2
  | false => simpa using hout (by simp [hb])

/-! ## The draw -/

/-- Whether a DXYN run in `s` has a set sprite bit over cell (cx, cy); the start position wraps (R201). -/
def drawCovers (s : State) (x y : Reg) (n : Nibble) (cx cy : Nat) : Bool :=
  spriteCovers s ((s.readV x).toNat % 64) ((s.readV y).toNat % 32) n.toNat cx cy

/-- The display and the collision bit that a DXYN run in `s` ends with. -/
def drawnCanvas (s : State) (x y : Reg) (n : Nibble) : Canvas :=
  drawRows (originX (s.readV x)) (originY (s.readV y)) (s.bytesAt s.i.toNat n.toNat) (s.display, false)

/-- The state that a DXYN leaves when it raises no fault. -/
def State.afterDraw (s : State) (x y : Reg) (n : Nibble) : State :=
  ((s.advance.setDisplay (drawnCanvas s x y n).1).writeV regF (flagByte (drawnCanvas s x y n).2)).endFrameEarly

section Draw

variable {s : State} {x y : Reg} {n : Nibble}

/-- R201: where the sprite's rows lie inside memory, DXYN completes. -/
theorem exec_drwVxVyN_of_fits (h : n.toNat = 0 ∨ s.i.toNat + n.toNat - 1 ≤ 0xFFF) :
    exec (.drwVxVyN x y n) s = .next (s.afterDraw x y n) := by
  have hread : s.advance.memRead s.i.toNat n.toNat = .ok (s.bytesAt s.i.toNat n.toNat) := by
    rw [State.memRead_eq, if_pos (by omega), State.bytesAt_advance]
  exact exec_of_ok _ _ (by simp [executeAt, effectOf, drwVxVyNEffect, hread, State.afterDraw, drawnCanvas])

/-- R201: a draw inverts the unclipped cells under the sprite's set bits. -/
theorem drawnCanvas_draws :
    Draws (fun cx cy => cx < 64 ∧ cy < 32 ∧ drawCovers s x y n cx cy = true) (s.display, false)
      (drawnCanvas s x y n) := by
  refine (drawRows_draws _ _ _ _).congr fun cx cy => ?_
  simp only [drawCovers, spriteCovers, originX, originY, Bool.and_eq_true, decide_eq_true_eq,
    State.length_bytesAt, State.getElem_bytesAt]
  constructor
  · rintro ⟨hx, hy, ⟨⟨⟨hrow, hlast⟩, hcol⟩, hwidth⟩, hbit⟩
    exact ⟨hx, hy, hcol, hwidth, hrow, by omega, hbit⟩
  · rintro ⟨hx, hy, hcol, hwidth, hrow, hlast, hbit⟩
    exact ⟨hx, hy, ⟨⟨⟨hrow, by omega⟩, hcol⟩, hwidth⟩, hbit⟩

theorem State.cell_afterDraw {cx cy : Nat} (hx : cx < 64) (hy : cy < 32) :
    (s.afterDraw x y n).display.cell cx cy = (s.display.cell cx cy ^^ drawCovers s x y n cx cy) := by
  simpa [State.afterDraw] using drawnCanvas_draws.cell_eq_xor hx hy

theorem State.readV_afterDraw_flag : (s.afterDraw x y n).readV 0xF = flagByte (drawnCanvas s x y n).2 := by
  simp [State.afterDraw]

theorem State.readV_afterDraw_of_ne {k : Reg} (hk : k ≠ 0xF) : (s.afterDraw x y n).readV k = s.readV k := by
  simp [State.afterDraw, show k ≠ regF from hk]

/-- R202: VF is 1 exactly if the draw found a cell lit under a set bit. -/
theorem State.readV_afterDraw_eq_one_iff :
    (s.afterDraw x y n).readV 0xF = 1 ↔ ∃ cx cy, cx < 64 ∧ cy < 32 ∧ s.display.cell cx cy = true ∧
      drawCovers s x y n cx cy = true := by
  rw [State.readV_afterDraw_flag, flagByte_eq_one_iff, drawnCanvas_draws.2]
  simp [and_assoc, and_comm]

/-- A draw that does not take its place from VF leaves the sprite where it was. -/
theorem drawCovers_afterDraw (hx : x ≠ 0xF) (hy : y ≠ 0xF) (cx cy : Nat) :
    drawCovers (s.afterDraw x y n) x y n cx cy = drawCovers s x y n cx cy := by
  have hVx : (s.afterDraw x y n).readV x = s.readV x := State.readV_afterDraw_of_ne hx
  have hVy : (s.afterDraw x y n).readV y = s.readV y := State.readV_afterDraw_of_ne hy
  have hi : (s.afterDraw x y n).i = s.i := rfl
  have hmem (a : Nat) : (s.afterDraw x y n).memByte a = s.memByte a := State.memByte_congr _ _ a rfl rfl
  simp only [drawCovers, spriteCovers, hVx, hVy, hi, hmem]

/-- R201's corner case: the second draw inverts back what the first inverted. -/
theorem State.display_afterDraw_afterDraw (hx : x ≠ 0xF) (hy : y ≠ 0xF) :
    ((s.afterDraw x y n).afterDraw x y n).display = s.display := by
  refine Display.ext_cell _ _ fun cx cy hcx hcy => ?_
  rw [State.cell_afterDraw hcx hcy, drawCovers_afterDraw hx hy, State.cell_afterDraw hcx hcy,
    Bool.xor_assoc, Bool.xor_self, Bool.xor_false]

end Draw

/-- Settles O52: DXYN leaves `State.afterDraw`, and a sprite that ends outside memory is its own fault. -/
theorem drawInvertsTheCoveredCells : Obligations.DrawInvertsTheCoveredCells := by
  intro x y n s
  exact ⟨fun hfits => ⟨_, exec_drwVxVyN_of_fits hfits, fun _ _ => State.cell_afterDraw,
    State.readV_afterDraw_eq_one_iff, State.readV_afterDraw_flag ▸ flagByte_eq_zero_or_eq_one _, rfl, rfl,
      by simp [State.afterDraw], by simp [State.afterDraw]⟩,
    fun hn hout => faultsWith_of_ownFault nofun (if_pos ⟨Nat.pos_of_ne_zero hn, hout⟩)⟩

/-- Settles O53: where the first draw inverted a cell, the second finds it lit exactly if it was unlit at first. -/
theorem drawingTwiceRestoresTheDisplay : Obligations.DrawingTwiceRestoresTheDisplay := by
  intro x y n s t hx hy hfits hdraw
  obtain rfl := Host.Outcome.next.inj ((exec_drwVxVyN_of_fits hfits).symm.trans hdraw)
  refine ⟨_, exec_drwVxVyN_of_fits (s := s.afterDraw x y n) hfits, State.display_afterDraw_afterDraw hx hy, ?_⟩
  rw [State.readV_afterDraw_eq_one_iff]
  refine exists₂_congr fun cx cy => and_congr_right fun hcx => and_congr_right fun hcy => ?_
  rw [drawCovers_afterDraw hx hy]
  refine and_congr_left fun hcovered => ?_
  rw [State.cell_afterDraw hcx hcy, hcovered, Bool.xor_true, Bool.not_eq_true']

end Sys2Proof.Machine
end

section
/-! Input instructions (45_input.md): the key skips (R210, R211) are skips on the test of one key bit; the key wait
(R212) writes a released key where there is one, and else leaves the state as it was but for the ended frame. -/

namespace Sys2Proof.Machine

/-! ## The key skips -/

theorem State.advance_skipIf_pc (s : State) (c : Bool) :
    (s.advance.skipIf c).pc = if c then s.pc + 4 else s.pc + 2 := by
  cases c with
  | true => exact BitVec.add_assoc s.pc 2 2
  | false => rfl

/-- Settles O54: each pseudocode is a skip, SKP's on the key's bit and SKNP's on its negation. -/
theorem keySkipsTestTheKey : Obligations.KeySkipsTestTheKey := by
  intro x s
  refine ⟨⟨_, exec_of_ok _ _ rfl, by simp, State.advance_skipIf_pc s _⟩, _, exec_of_ok _ _ rfl, by simp, ?_⟩
  refine (State.advance_skipIf_pc s !s.key.getLsbD ((s.readV x).toNat % 16)).trans ?_
  cases s.key.getLsbD ((s.readV x).toNat % 16) <;> rfl

/-! ## The key wait -/

@[simp] theorem State.advance_rewind (s : State) : s.advance.rewind = s := by
  simp [State.rewind, State.advance]

theorem releasedKeys_eq_nil_iff (p q : Keys) :
    releasedKeys p q = [] ↔ ∀ k, k < 16 → p.getLsbD k = true → q.getLsbD k = true := by
  simp only [List.eq_nil_iff_forall_not_mem, mem_releasedKeys, not_and, Bool.not_eq_false]

theorem keyByte_toNat {k : Nat} (h : k < 16) : (keyByte k).toNat = k := by
  simp only [keyByte, BitVec.toNat_ofNat]
  omega

/-- The key that FX0A gives in `s`, where one is released. -/
def State.pickedKey (s : State) : Nat :=
  pickKey (releasedKeys s.prevKey s.key) (Config.freePick s.freeCount)

/-- What FX0A leaves of `s` where a key is released. -/
def State.afterKey (s : State) (x : Reg) : State :=
  (s.advance.writeV x (keyByte s.pickedKey)).drawFree

section KeyWait

variable {s : State} {x : Reg}

theorem State.pickedKey_mem (h : releasedKeys s.prevKey s.key ≠ []) :
    s.pickedKey ∈ releasedKeys s.prevKey s.key := pickKey_mem _ _ h

theorem exec_ldVxK_of_released (h : releasedKeys s.prevKey s.key ≠ []) :
    exec (.ldVxK x) s = .next (s.afterKey x) := by
  refine exec_of_ok _ _ ?_
  obtain ⟨k, ks, hkeys⟩ := List.exists_cons_of_ne_nil h
  simp [executeAt, effectOf, ldVxKEffect, State.afterKey, State.pickedKey, hkeys]

theorem exec_ldVxK_of_none_released (h : releasedKeys s.prevKey s.key = []) :
    exec (.ldVxK x) s = .next s.endFrameEarly := by
  refine exec_of_ok _ _ ?_
  simp [executeAt, effectOf, ldVxKEffect, h]

end KeyWait

/-- Settles O55: the byte written is the number of a key of R212's set; an empty set rewinds the pc to the fetch. -/
theorem keyWaitNeedsAReleasedKey : Obligations.KeyWaitNeedsAReleasedKey := by
  intro x s
  constructor
  · rintro ⟨k, hk⟩
    have hne : releasedKeys s.prevKey s.key ≠ [] := List.ne_nil_of_mem ((mem_releasedKeys _ _ k).mpr hk)
    obtain ⟨hlt, hprev, hnow⟩ := (mem_releasedKeys _ _ _).mp (State.pickedKey_mem hne)
    have hvx : ((s.afterKey x).readV x).toNat = s.pickedKey := by simp [State.afterKey, keyByte_toNat hlt]
    refine ⟨_, exec_ldVxK_of_released hne, rfl, ?_⟩
    rw [hvx]
    exact ⟨hlt, hprev, hnow, by simp [State.afterKey], by simp [State.afterKey]⟩
  · intro hheld
    exact ⟨_, exec_ldVxK_of_none_released ((releasedKeys_eq_nil_iff _ _).mpr hheld), rfl, by simp⟩

end Sys2Proof.Machine
end

section
/-! Timer instructions (46_timers.md R220-R222): each is one write; the sound output (10_state.md R38) tests ST. -/

namespace Sys2Proof.Machine

theorem State.soundActive_eq_true_iff (s : State) : s.soundActive = true ↔ s.st ≠ 0 := bne_iff_ne

theorem exec_ldDtVx (x : Reg) (s : State) :
    exec (.ldDtVx x) s = .next (s.advance.writeDt (s.readV x)) := exec_of_ok _ _ rfl

theorem exec_ldStVx (x : Reg) (s : State) :
    exec (.ldStVx x) s = .next (s.advance.writeSt (s.readV x)) := exec_of_ok _ _ rfl

/-- Settles O56: FX07 is the one write of DT to VX, FX15 and FX18 the one write of VX to a timer. -/
theorem timerMoves : Obligations.TimerMoves := fun x s =>
  ⟨exec_of_writeV rfl,
    ⟨_, exec_ldDtVx x s, rfl, rfl, by simp⟩,
    ⟨_, exec_ldStVx x s, rfl, State.soundActive_eq_true_iff _, rfl, by simp⟩⟩

end Sys2Proof.Machine
end

section
/-! FRAME and faults (60_exceptions.md). What a FRAME's first and last step are (R240, R250), the loop of FRAME as a
run of counted instruction steps (R250, R251, R254), the countdown (R241), and from the frame of each instruction
which of them fault (R231) and which end the frame (R252, R253). -/

namespace Sys2Proof.Machine

/-! ## The steps between instructions -/

theorem step_of_not_inFrame {s : State} (hf : s.inFrame = false) : step s = .next (openFrame s) := by
  simp [step, hf]

theorem step_of_loop_ended {s : State} (hf : s.inFrame = true) (hend : frameGoesOn s = false) :
    step s = .next (endFrame s) := by
  simp [step, hf, hend]

theorem frameGoesOn_eq_false_iff {s : State} :
    frameGoesOn s = false ↔ s.cfg.ipf ≤ s.executed ∨ s.frameOver = true ∨ s.halted = true := by
  rw [← Bool.not_eq_true, frameGoesOn_iff]
  simp only [not_and_or, Nat.not_lt, Bool.not_eq_false]

/-- Settles O11: the step is `openFrame`, which for a running core is `beginFrame` after one draw. -/
theorem frameStartSnapshotsKeysAndCountsDown : Obligations.FrameStartSnapshotsKeysAndCountsDown := by
  intro s hf hrun
  refine ⟨openFrame s, step_of_not_inFrame hf, ?_⟩
  have hframe := changesOnly_openFrame s
  rw [openFrame_running s hrun, beginFrame_running s.drawFree _ hrun] at hframe ⊢
  exact ⟨rfl, rfl, tick_toNat s.dt, tick_toNat s.st, rfl, rfl, rfl, hframe⟩

/-- Settles O12: each of the three conditions ends R250's loop, and the step is `endFrame`. -/
theorem frameReturnsWhenLoopEnds : Obligations.FrameReturnsWhenLoopEnds := fun s hf hend =>
  ⟨endFrame s, step_of_loop_ended hf (frameGoesOn_eq_false_iff.mpr hend), rfl, changesOnly_endFrame s⟩

/-- Settles O13: both FRAME and `openFrame` test `halted` first. -/
theorem haltedFrameChangesNothing : Obligations.HaltedFrameChangesNothing := by
  intro s hhalt
  refine ⟨fun keys => if_pos hhalt, fun hf => ?_⟩
  rw [step_of_not_inFrame hf, openFrame_halted s hhalt]

/-! ## Runs of the machine -/

theorem core_run_trans {j k : Nat} {s t u : State} (hj : core.run j s = .next t) (hk : core.run k t = .next u) :
    core.run (j + k) s = .next u := by
  induction j generalizing s with
  | zero =>
    obtain rfl := Host.Outcome.next.inj hj
    rwa [Nat.zero_add]
  | succ j ih =>
    obtain ⟨s', hs'⟩ := step_total s
    have hstep : core.step s = .next s' := hs'
    rw [Nat.succ_add]
    simp only [Host.Core.run, hstep] at hj ⊢
    exact ih hj

theorem core_run_one {s t : State} (h : step s = .next t) : core.run 1 s = .next t := by
  have hstep : core.step s = .next t := h
  simp only [Host.Core.run, hstep]

/-! ## The loop of a FRAME -/

/-- An instruction step may halt the core; the other parts that no completed instruction changes stay. -/
theorem instructionStep_keeps_untouched {s t : State} (h : instructionStep s = .next t) {p : Part}
    (hp : p ∈ untouched) (hfault : p ∉ [Part.halted, Part.faultKind]) : p.same s t := by
  unfold instructionStep at h
  split at h
  · rcases exec_cases h with ⟨j, hj, hok⟩ | ⟨k, -, rfl⟩
    · exact executeAt_keeps_untouched hj hok hp
    · exact changesOnly_enterFault s k p hfault
  · obtain rfl := Host.Outcome.next.inj h
    exact changesOnly_enterFault s _ p hfault

theorem frameLoop_of_ended {s : State} (hend : frameGoesOn s = false) (n : Nat) : frameLoop n s = s := by
  cases n <;> simp [frameLoop, hend]

theorem frameLoop_succ_of_goesOn {s t : State} (hgo : frameGoesOn s = true) (h : instructionStep s = .next t)
    (n : Nat) : frameLoop (n + 1) s = frameLoop n (countStep t) := by
  simp only [frameLoop, hgo, if_true, h, counted]

/-- `k` steps of the machine, each an instruction step that the FRAME under way counts, lead from `s` to `u`. -/
structure CountedRun (k : Nat) (s u : State) : Prop where
  run : core.run k s = .next u
  inFrame : u.inFrame = true
  executed : u.executed = s.executed + k
  cfg : u.cfg = s.cfg

theorem CountedRun.refl {s : State} (hf : s.inFrame = true) : CountedRun 0 s s := ⟨rfl, hf, rfl, rfl⟩

theorem CountedRun.trans {j k : Nat} {s t u : State} (hj : CountedRun j s t) (hk : CountedRun k t u) :
    CountedRun (j + k) s u where
  run := core_run_trans hj.run hk.run
  inFrame := hk.inFrame
  executed := by rw [hk.executed, hj.executed, Nat.add_assoc]
  cfg := hk.cfg.trans hj.cfg

theorem countedRun_instructionStep {s t : State} (hf : s.inFrame = true) (hgo : frameGoesOn s = true)
    (h : instructionStep s = .next t) : CountedRun 1 s (countStep t) where
  run := by
    obtain ⟨hb, ho, hh⟩ := frameGoesOn_iff.mp hgo
    exact core_run_one (by rw [step_of_goesOn hf hb ho hh, h, counted])
  inFrame := (instructionStep_keeps_untouched (p := .inFrame) h (by decide) (by decide)).trans hf
  executed := congrArg (· + 1) (instructionStep_keeps_untouched (p := .executed) h (by decide) (by decide))
  cfg := instructionStep_keeps_untouched (p := .cfg) h (by decide) (by decide)

/-- R250's loop is a run of counted instruction steps, and only running out of fuel cuts it short. -/
theorem exists_countedRun_frameLoop (n : Nat) {s : State} (hf : s.inFrame = true) :
    ∃ k ≤ n, CountedRun k s (frameLoop n s) ∧ (k < n → frameGoesOn (frameLoop n s) = false) := by
  induction n generalizing s with
  | zero => exact ⟨0, Nat.le_refl 0, .refl hf, nofun⟩
  | succ n ih =>
    cases hgo : frameGoesOn s with
    | false =>
      rw [frameLoop_of_ended hgo]
      exact ⟨0, Nat.zero_le _, .refl hf, fun _ => hgo⟩
    | true =>
      obtain ⟨t, ht⟩ := instructionStep_total s
      have hfirst := countedRun_instructionStep hf hgo ht
      obtain ⟨k, hk, hrest, hended⟩ := ih hfirst.inFrame
      rw [frameLoop_succ_of_goesOn hgo ht]
      exact ⟨1 + k, by omega, hfirst.trans hrest, fun hlt => hended (by omega)⟩

section Running

variable {s : State} (keys : Keys) (hrun : s.halted = false)

include hrun

theorem beginFrame_inFrame : (beginFrame keys s).inFrame = true := by rw [beginFrame_running s keys hrun]

theorem beginFrame_executed : (beginFrame keys s).executed = 0 := by rw [beginFrame_running s keys hrun]

theorem beginFrame_cfg : (beginFrame keys s).cfg = s.cfg := by rw [beginFrame_running s keys hrun]

theorem frame_running : frame keys s = endFrame (frameLoop s.cfg.ipf (beginFrame keys s)) := if_neg (by simp [hrun])

/-- With the whole budget as fuel, the loop of a FRAME comes to its own end. -/
theorem exists_countedRun_frame :
    ∃ k ≤ s.cfg.ipf, CountedRun k (beginFrame keys s) (frameLoop s.cfg.ipf (beginFrame keys s)) ∧
      (frameLoop s.cfg.ipf (beginFrame keys s)).executed = k ∧
      frameGoesOn (frameLoop s.cfg.ipf (beginFrame keys s)) = false := by
  obtain ⟨k, hk, hloop, hended⟩ := exists_countedRun_frameLoop s.cfg.ipf (beginFrame_inFrame keys hrun)
  have hcount := hloop.executed
  rw [beginFrame_executed keys hrun, Nat.zero_add] at hcount
  refine ⟨k, hk, hloop, hcount, ?_⟩
  rcases Nat.lt_or_eq_of_le hk with hlt | hspent
  · exact hended hlt
  · refine frameGoesOn_eq_false_iff.mpr (.inl ?_)
    rw [hcount, hloop.cfg, beginFrame_cfg keys hrun, hspent]

end Running

/-- Settles O15: the loop counts each of its steps, at most IPF of them, and does not stop short of its end. -/
theorem frameSpendsAtMostItsBudget : Obligations.FrameSpendsAtMostItsBudget := by
  intro s keys hrun
  obtain ⟨k, hk, -, hcount, hended⟩ := exists_countedRun_frame keys hrun
  exact ⟨hcount.trans_le hk, hended⟩

/-- Settles O14: one step opens the FRAME, the loop is a run of at most IPF steps, and one more step returns. -/
theorem stepsCarryOutFrame : Obligations.StepsCarryOutFrame := by
  intro s hf hrun
  change ∃ k, k ≤ s.cfg.ipf + 2 ∧ core.run k s = .next (frame (Config.freeKeys s.freeCount) s.drawFree)
  have hopen := core_run_one (step_of_not_inFrame hf)
  rw [openFrame_running s hrun] at hopen
  obtain ⟨k, hk, hloop, -, hended⟩ :=
    exists_countedRun_frame (s := s.drawFree) (Config.freeKeys s.freeCount) hrun
  have hreturn := core_run_one (step_of_loop_ended hloop.inFrame hended)
  rw [frame_running (s := s.drawFree) _ hrun]
  rw [State.drawFree_cfg] at hk
  exact ⟨1 + k + 1, by omega, core_run_trans (core_run_trans hopen hloop.run) hreturn⟩

/-! ## The countdown -/

/-- Settles O16, by induction on the number of countdowns. -/
theorem timerReachesZeroAfterItsValue : Obligations.TimerReachesZeroAfterItsValue := by
  intro v n
  induction n with
  | zero => rfl
  | succ n ih => rw [Function.iterate_succ_apply', tick_toNat, ih, Nat.sub_sub]

/-! ## Faults and early ends -/

/-- Settles O25: the pseudocode raises exactly `ownFault`, and one that completes leaves `halted` and the kind. -/
theorem whichInstructionsFault : Obligations.WhichInstructionsFault := by
  intro i s hi
  refine ⟨fun k hk => exec_of_error s ((executeAt_eq_error_iff_ownFault hi).mpr hk), fun hnone => ?_⟩
  cases he : executeAt s.cfg.sysDepthMax i s.advance with
  | ok t =>
    exact ⟨t, exec_of_ok s t he, executeAt_keeps_untouched hi he (p := .halted) (by decide),
      executeAt_keeps_untouched hi he (p := .faultKind) (by decide)⟩
  | error k => cases hnone.symm.trans ((executeAt_eq_error_iff_ownFault hi).mp he)

theorem frameOver_mem_writes_iff (i : Instr) :
    .frameOver ∈ writes i ↔ (∃ x y n, i = .drwVxVyN x y n) ∨ ∃ x, i = .ldVxK x := by
  cases i <;> simp [writes]

theorem State.afterKey_frameOver (s : State) (x : Reg) : (s.afterKey x).frameOver = s.frameOver := rfl

/-- Settles O28: an instruction that ends the frame writes `frameOver`, and a satisfied key wait leaves it. -/
theorem onlyDrawAndWaitEndTheFrame : Obligations.OnlyDrawAndWaitEndTheFrame := by
  intro i s t hi h hbefore hafter
  have hwrites : .frameOver ∈ writes i := by
    by_contra hnot
    have hkept : t.frameOver = s.frameOver := by
      rcases (exec_eq_next s t i).mp h with hok | ⟨k, -, rfl⟩
      · exact executeAt_changesOnly_writes hi hok .frameOver hnot
      · exact s.enterFault_frameOver k
    simp [hkept, hbefore] at hafter
  rcases (frameOver_mem_writes_iff i).mp hwrites with hdraw | ⟨x, rfl⟩
  · exact .inl hdraw
  · refine .inr ⟨⟨x, rfl⟩, ?_⟩
    by_contra hreleased
    obtain rfl := Host.Outcome.next.inj (h.symm.trans (exec_ldVxK_of_released hreleased))
    simp [State.afterKey_frameOver, hbefore] at hafter

end Sys2Proof.Machine
end
